-- ==== Sys2Proof/Word.lean ====
section
/-!
DEFINITION. The word types of the HT48R12C (00_scope R6, R12).
-/

namespace Sys2Proof

/-- A data value: 8 bits, unsigned (R12). -/
abbrev Byte := BitVec 8

/-- A data-memory address: 7 bits, 00H to 7FH (R6, R14). -/
abbrev DataAddr := BitVec 7

/-- A program address: 10 bits, 000H to 3FFH (R6, R33). -/
abbrev ProgAddr := BitVec 10

/-- A program word: 14 bits (R6, R101). -/
abbrev ProgWord := BitVec 14

end Sys2Proof
end

