-- ==== Sys2Proof/Config.lean ====
section
/-!
DEFINITION. What an implementation fixes (00_scope R7) and the free values: what the spec leaves open.
An `opaque` constant has no body, so nothing can be proved of its value.
-/

namespace Sys2Proof.Config

/-- INT_ACK_CYCLES (R7, R412): the instruction cycles an interrupt acknowledgement takes. The source does
not say how many (D21, U15). Log 17. -/
opaque intAckCycles : Nat

/-- DAA_DISPUTED (R7, R211): the byte and the carry `DAA` gives for (ACC, AC, C) when the low nibble is above 9 and AC
is set (U4). Log 16. -/
opaque daaDisputed : Byte → Bool → Bool → Byte × Bool

/-- The flags (bit 0 C, bit 1 AC, bit 2 Z, bit 3 OV) that an instruction leaves when its destination is STATUS and it
writes flags as well (R52, U3). Log 13. -/
opaque statusClash : Nat → BitVec 4

/-- The `pc` that SIZ or SDZ leaves when it loads PCL and skips at once (R292, U6). Log 14. -/
opaque pclSkipTarget : Nat → ProgAddr

/-- The counter after a clock edge in the unused timer mode with TON = 1 (R421, U9). Log 15. -/
opaque unusedModeCount : Nat → Byte

/-- Whether that clock edge sets TF (R421, U9). Log 15. -/
opaque unusedModeOverflow : Nat → Bool

/-- The ROM code option word of `State.reset` and of `decodeTableWord`: 2200H, the word the spec's test vectors use
unless they say otherwise (WDT disabled, one-instruction clear). DESIGN CHOICE, unsafe: log 2. -/
def defaultOption : BitVec 14 := 0x2200#14

end Sys2Proof.Config
end

