-- ==== Sys2Proof/Syntax.lean ====
section
/-!
DEFINITION. The 63 instructions of the HT48R12C (30_encoding R142, R150), one constructor per row of
spec/opcode_table.json. Operands: `m` a 7-bit data address, `x` an 8-bit immediate, `i` a bit number 0 to 7,
`addr` a 10-bit program address (R143, R144).
-/

namespace Sys2Proof

inductive Instr where
  -- Arithmetic
  /-- `ADD A,[m]` (R201). -/
  | addAM (m : DataAddr)
  /-- `ADDM A,[m]` (R202). -/
  | addmAM (m : DataAddr)
  /-- `ADD A,x` (R203). -/
  | addAX (x : Byte)
  /-- `ADC A,[m]` (R204). -/
  | adcAM (m : DataAddr)
  /-- `ADCM A,[m]` (R205). -/
  | adcmAM (m : DataAddr)
  /-- `SUB A,x` (R206). -/
  | subAX (x : Byte)
  /-- `SUB A,[m]` (R207). -/
  | subAM (m : DataAddr)
  /-- `SUBM A,[m]` (R208). -/
  | submAM (m : DataAddr)
  /-- `SBC A,[m]` (R209). -/
  | sbcAM (m : DataAddr)
  /-- `SBCM A,[m]` (R210). -/
  | sbcmAM (m : DataAddr)
  /-- `DAA [m]` (R211). -/
  | daaM (m : DataAddr)
  -- Logic Operation
  /-- `AND A,[m]` (R221). -/
  | andAM (m : DataAddr)
  /-- `OR A,[m]` (R222). -/
  | orAM (m : DataAddr)
  /-- `XOR A,[m]` (R223). -/
  | xorAM (m : DataAddr)
  /-- `ANDM A,[m]` (R224). -/
  | andmAM (m : DataAddr)
  /-- `ORM A,[m]` (R225). -/
  | ormAM (m : DataAddr)
  /-- `XORM A,[m]` (R226). -/
  | xormAM (m : DataAddr)
  /-- `AND A,x` (R227). -/
  | andAX (x : Byte)
  /-- `OR A,x` (R228). -/
  | orAX (x : Byte)
  /-- `XOR A,x` (R229). -/
  | xorAX (x : Byte)
  /-- `CPL [m]` (R230). -/
  | cplM (m : DataAddr)
  /-- `CPLA [m]` (R231). -/
  | cplaM (m : DataAddr)
  -- Increment & Decrement
  /-- `INCA [m]` (R241). -/
  | incaM (m : DataAddr)
  /-- `INC [m]` (R242). -/
  | incM (m : DataAddr)
  /-- `DECA [m]` (R243). -/
  | decaM (m : DataAddr)
  /-- `DEC [m]` (R244). -/
  | decM (m : DataAddr)
  -- Rotate
  /-- `RRA [m]` (R251). -/
  | rraM (m : DataAddr)
  /-- `RR [m]` (R252). -/
  | rrM (m : DataAddr)
  /-- `RRCA [m]` (R253). -/
  | rrcaM (m : DataAddr)
  /-- `RRC [m]` (R254). -/
  | rrcM (m : DataAddr)
  /-- `RLA [m]` (R255). -/
  | rlaM (m : DataAddr)
  /-- `RL [m]` (R256). -/
  | rlM (m : DataAddr)
  /-- `RLCA [m]` (R257). -/
  | rlcaM (m : DataAddr)
  /-- `RLC [m]` (R258). -/
  | rlcM (m : DataAddr)
  -- Data Move
  /-- `MOV A,[m]` (R266). -/
  | movAM (m : DataAddr)
  /-- `MOV [m],A` (R267). -/
  | movMA (m : DataAddr)
  /-- `MOV A,x` (R268). -/
  | movAX (x : Byte)
  -- Bit Operation
  /-- `CLR [m].i` (R276). -/
  | clrMI (m : DataAddr) (i : BitVec 3)
  /-- `SET [m].i` (R277). -/
  | setMI (m : DataAddr) (i : BitVec 3)
  -- Branch
  /-- `JMP addr` (R287). -/
  | jmp (addr : ProgAddr)
  /-- `SZ [m]` (R288). -/
  | szM (m : DataAddr)
  /-- `SZA [m]` (R289). -/
  | szaM (m : DataAddr)
  /-- `SZ [m].i` (R290). -/
  | szMI (m : DataAddr) (i : BitVec 3)
  /-- `SNZ [m].i` (R291). -/
  | snzMI (m : DataAddr) (i : BitVec 3)
  /-- `SIZ [m]` (R292). -/
  | sizM (m : DataAddr)
  /-- `SDZ [m]` (R293). -/
  | sdzM (m : DataAddr)
  /-- `SIZA [m]` (R294). -/
  | sizaM (m : DataAddr)
  /-- `SDZA [m]` (R295). -/
  | sdzaM (m : DataAddr)
  /-- `CALL addr` (R296). -/
  | call (addr : ProgAddr)
  /-- `RET` (R297). -/
  | ret
  /-- `RET A,x` (R299). -/
  | retAX (x : Byte)
  /-- `RETI` (R298). -/
  | reti
  -- Table Read
  /-- `TABRDC [m]` (R310). -/
  | tabrdcM (m : DataAddr)
  /-- `TABRDL [m]` (R311). -/
  | tabrdlM (m : DataAddr)
  -- Miscellaneous
  /-- `NOP` (R321). -/
  | nop
  /-- `CLR [m]` (R322). -/
  | clrM (m : DataAddr)
  /-- `SET [m]` (R323). -/
  | setM (m : DataAddr)
  /-- `CLR WDT` (R324). -/
  | clrWdt
  /-- `CLR WDT1` (R325). -/
  | clrWdt1
  /-- `CLR WDT2` (R326). -/
  | clrWdt2
  /-- `SWAP [m]` (R327). -/
  | swapM (m : DataAddr)
  /-- `SWAPA [m]` (R328). -/
  | swapaM (m : DataAddr)
  /-- `HALT` (R329). -/
  | halt
  deriving DecidableEq, Repr

end Sys2Proof
end

