-- ==== Sys2Proof/WellFormed.lean ====
section
/-!
DEFINITION. Well-formed instructions. The operand types carry the operand ranges of 30_encoding R143, R144, so every
term's operands fit their fields. What is left to check is the ROM code option (30_encoding R156): with OP9 = 1 the
word 0001H is `CLR WDT`, with OP9 = 0 it is `CLR WDT1`, so each of the two can stand in a program of one kind of part
only. An option word must have OP10 = OP11 = 0 (10_state R75).
-/

namespace Sys2Proof

/-- The option word is one the spec covers: OP10 and OP11 are 0 (10_state R75, U12). -/
def optionWellFormed (opt : BitVec 14) : Bool :=
  !opt.getLsbD 10 && !opt.getLsbD 11

/-- `i` can be written as a program word of a part whose option word is `opt` (30_encoding R156). -/
def Instr.wellFormed (opt : BitVec 14) : Instr → Bool
  | .addAM _ => true
  | .addmAM _ => true
  | .addAX _ => true
  | .adcAM _ => true
  | .adcmAM _ => true
  | .subAX _ => true
  | .subAM _ => true
  | .submAM _ => true
  | .sbcAM _ => true
  | .sbcmAM _ => true
  | .daaM _ => true
  | .andAM _ => true
  | .orAM _ => true
  | .xorAM _ => true
  | .andmAM _ => true
  | .ormAM _ => true
  | .xormAM _ => true
  | .andAX _ => true
  | .orAX _ => true
  | .xorAX _ => true
  | .cplM _ => true
  | .cplaM _ => true
  | .incaM _ => true
  | .incM _ => true
  | .decaM _ => true
  | .decM _ => true
  | .rraM _ => true
  | .rrM _ => true
  | .rrcaM _ => true
  | .rrcM _ => true
  | .rlaM _ => true
  | .rlM _ => true
  | .rlcaM _ => true
  | .rlcM _ => true
  | .movAM _ => true
  | .movMA _ => true
  | .movAX _ => true
  | .clrMI _ _ => true
  | .setMI _ _ => true
  | .jmp _ => true
  | .szM _ => true
  | .szaM _ => true
  | .szMI _ _ => true
  | .snzMI _ _ => true
  | .sizM _ => true
  | .sdzM _ => true
  | .sizaM _ => true
  | .sdzaM _ => true
  | .call _ => true
  | .ret => true
  | .retAX _ => true
  | .reti => true
  | .tabrdcM _ => true
  | .tabrdlM _ => true
  | .nop => true
  | .clrM _ => true
  | .setM _ => true
  | .clrWdt => opt.getLsbD 9
  | .clrWdt1 => !opt.getLsbD 9
  | .clrWdt2 => true
  | .swapM _ => true
  | .swapaM _ => true
  | .halt => true

end Sys2Proof
end

