-- ==== Sys2Proof/Decode.lean ====
section
/-!
DEFINITION. The parameter ENC (00_scope R7, 30_encoding R141) as a type, and its default value (30_encoding R151, R152,
R156): decoder and encoder. The source of the spec gives no encoding; the table is the spec's, from general knowledge
(D1, D2, G2). PRESUMED, unsafe: log 1.
A table row stands here under its match value, in the function of its mask.
-/

namespace Sys2Proof

/-- What a program word decodes to. -/
inductive Decoded where
  /-- The word is this instruction. -/
  | instr (i : Instr)
  /-- The word matches no row of the table (30_encoding R153). -/
  | reserved (w : ProgWord)
  deriving DecidableEq, Repr

/-- ENC (00_scope R7, 30_encoding R141): any total function from a part's option word (R156) and a program word to an
instruction or `reserved`. The CPU's step takes it as an argument. -/
abbrev Enc := BitVec 14 → ProgWord → Decoded

/-- Field `m`, bits 6:0 (R152). -/
def fieldM (w : ProgWord) : DataAddr := w.extractLsb' 0 7

/-- Field `x`, bits 7:0 (R152). -/
def fieldX (w : ProgWord) : Byte := w.extractLsb' 0 8

/-- Field `i`, bits 9:7 (R152). -/
def fieldI (w : ProgWord) : BitVec 3 := w.extractLsb' 7 3

/-- Field `addr`, bits 9:0 (R152). -/
def fieldAddr (w : ProgWord) : ProgAddr := w.extractLsb' 0 10

/-- Rows of mask 3FFFH, format N. The word 0001H is `CLR WDT` when OP9 = 1 and `CLR WDT1` when OP9 = 0 (R156). -/
def decodeN (opt : BitVec 14) (w : ProgWord) : Option Instr :=
  match w.toNat with
  | 0x0001 => some (if opt.getLsbD 9 then .clrWdt else .clrWdt1)
  | 0x0000 => some .nop  -- NOP
  | 0x0002 => some .halt  -- HALT
  | 0x0003 => some .ret  -- RET
  | 0x0004 => some .reti  -- RETI
  | 0x0005 => some .clrWdt2  -- CLR WDT2
  | _ => none

/-- Rows of mask 3F80H, format M. -/
def decodeM (w : ProgWord) : Option Instr :=
  match (w &&& 0x3F80#14).toNat with
  | 0x0080 => some (.movMA (fieldM w))  -- MOV [m],A
  | 0x0100 => some (.cplaM (fieldM w))  -- CPLA [m]
  | 0x0180 => some (.cplM (fieldM w))  -- CPL [m]
  | 0x0200 => some (.subAM (fieldM w))  -- SUB A,[m]
  | 0x0280 => some (.submAM (fieldM w))  -- SUBM A,[m]
  | 0x0300 => some (.addAM (fieldM w))  -- ADD A,[m]
  | 0x0380 => some (.addmAM (fieldM w))  -- ADDM A,[m]
  | 0x0400 => some (.xorAM (fieldM w))  -- XOR A,[m]
  | 0x0480 => some (.xormAM (fieldM w))  -- XORM A,[m]
  | 0x0500 => some (.orAM (fieldM w))  -- OR A,[m]
  | 0x0580 => some (.ormAM (fieldM w))  -- ORM A,[m]
  | 0x0600 => some (.andAM (fieldM w))  -- AND A,[m]
  | 0x0680 => some (.andmAM (fieldM w))  -- ANDM A,[m]
  | 0x0700 => some (.movAM (fieldM w))  -- MOV A,[m]
  | 0x1000 => some (.szaM (fieldM w))  -- SZA [m]
  | 0x1080 => some (.szM (fieldM w))  -- SZ [m]
  | 0x1100 => some (.swapaM (fieldM w))  -- SWAPA [m]
  | 0x1180 => some (.swapM (fieldM w))  -- SWAP [m]
  | 0x1200 => some (.sbcAM (fieldM w))  -- SBC A,[m]
  | 0x1280 => some (.sbcmAM (fieldM w))  -- SBCM A,[m]
  | 0x1300 => some (.adcAM (fieldM w))  -- ADC A,[m]
  | 0x1380 => some (.adcmAM (fieldM w))  -- ADCM A,[m]
  | 0x1400 => some (.incaM (fieldM w))  -- INCA [m]
  | 0x1480 => some (.incM (fieldM w))  -- INC [m]
  | 0x1500 => some (.decaM (fieldM w))  -- DECA [m]
  | 0x1580 => some (.decM (fieldM w))  -- DEC [m]
  | 0x1600 => some (.sizaM (fieldM w))  -- SIZA [m]
  | 0x1680 => some (.sizM (fieldM w))  -- SIZ [m]
  | 0x1700 => some (.sdzaM (fieldM w))  -- SDZA [m]
  | 0x1780 => some (.sdzM (fieldM w))  -- SDZ [m]
  | 0x1800 => some (.rlaM (fieldM w))  -- RLA [m]
  | 0x1880 => some (.rlM (fieldM w))  -- RL [m]
  | 0x1900 => some (.rraM (fieldM w))  -- RRA [m]
  | 0x1980 => some (.rrM (fieldM w))  -- RR [m]
  | 0x1A00 => some (.rlcaM (fieldM w))  -- RLCA [m]
  | 0x1A80 => some (.rlcM (fieldM w))  -- RLC [m]
  | 0x1B00 => some (.rrcaM (fieldM w))  -- RRCA [m]
  | 0x1B80 => some (.rrcM (fieldM w))  -- RRC [m]
  | 0x1D00 => some (.tabrdcM (fieldM w))  -- TABRDC [m]
  | 0x1D80 => some (.tabrdlM (fieldM w))  -- TABRDL [m]
  | 0x1E80 => some (.daaM (fieldM w))  -- DAA [m]
  | 0x1F00 => some (.clrM (fieldM w))  -- CLR [m]
  | 0x1F80 => some (.setM (fieldM w))  -- SET [m]
  | _ => none

/-- Rows of mask 3F00H, format X. -/
def decodeX (w : ProgWord) : Option Instr :=
  match (w &&& 0x3F00#14).toNat with
  | 0x0900 => some (.retAX (fieldX w))  -- RET A,x
  | 0x0A00 => some (.subAX (fieldX w))  -- SUB A,x
  | 0x0B00 => some (.addAX (fieldX w))  -- ADD A,x
  | 0x0C00 => some (.xorAX (fieldX w))  -- XOR A,x
  | 0x0D00 => some (.orAX (fieldX w))  -- OR A,x
  | 0x0E00 => some (.andAX (fieldX w))  -- AND A,x
  | 0x0F00 => some (.movAX (fieldX w))  -- MOV A,x
  | _ => none

/-- Rows of mask 3C00H, formats A and B; for `CALL` and `JMP` the mask holds bit 10 at 0 (R144). -/
def decodeAB (w : ProgWord) : Option Instr :=
  match (w &&& 0x3C00#14).toNat with
  | 0x2000 => some (.call (fieldAddr w))  -- CALL addr
  | 0x2800 => some (.jmp (fieldAddr w))  -- JMP addr
  | 0x3000 => some (.setMI (fieldM w) (fieldI w))  -- SET [m].i
  | 0x3400 => some (.clrMI (fieldM w) (fieldI w))  -- CLR [m].i
  | 0x3800 => some (.snzMI (fieldM w) (fieldI w))  -- SNZ [m].i
  | 0x3C00 => some (.szMI (fieldM w) (fieldI w))  -- SZ [m].i
  | _ => none

/-- The default value of ENC (30_encoding R151, R153): the instruction of a word on a part with option word `opt`, or
`reserved`. -/
def decode : Enc := fun opt w =>
  match decodeN opt w <|> decodeM w <|> decodeX w <|> decodeAB w with
  | some i => .instr i
  | none => .reserved w

/-- A word of format M: the row's match value and the data address (R151, R152). -/
def wordM (row : ProgWord) (m : DataAddr) : ProgWord := row ||| m.setWidth 14

/-- A word of format X: the row's match value and the immediate. -/
def wordX (row : ProgWord) (x : Byte) : ProgWord := row ||| x.setWidth 14

/-- A word of format B: the row's match value, the bit number at 9:7 and the data address. -/
def wordB (row : ProgWord) (m : DataAddr) (i : BitVec 3) : ProgWord :=
  row ||| (i.setWidth 14 <<< 7) ||| m.setWidth 14

/-- A word of format A: the row's match value and the program address. -/
def wordA (row : ProgWord) (addr : ProgAddr) : ProgWord := row ||| addr.setWidth 14

/-- The word of an instruction, from the same table (30_encoding R151). -/
def encode : Instr → ProgWord
  | .addAM m => wordM 0x0300#14 m
  | .addmAM m => wordM 0x0380#14 m
  | .addAX x => wordX 0x0B00#14 x
  | .adcAM m => wordM 0x1300#14 m
  | .adcmAM m => wordM 0x1380#14 m
  | .subAX x => wordX 0x0A00#14 x
  | .subAM m => wordM 0x0200#14 m
  | .submAM m => wordM 0x0280#14 m
  | .sbcAM m => wordM 0x1200#14 m
  | .sbcmAM m => wordM 0x1280#14 m
  | .daaM m => wordM 0x1E80#14 m
  | .andAM m => wordM 0x0600#14 m
  | .orAM m => wordM 0x0500#14 m
  | .xorAM m => wordM 0x0400#14 m
  | .andmAM m => wordM 0x0680#14 m
  | .ormAM m => wordM 0x0580#14 m
  | .xormAM m => wordM 0x0480#14 m
  | .andAX x => wordX 0x0E00#14 x
  | .orAX x => wordX 0x0D00#14 x
  | .xorAX x => wordX 0x0C00#14 x
  | .cplM m => wordM 0x0180#14 m
  | .cplaM m => wordM 0x0100#14 m
  | .incaM m => wordM 0x1400#14 m
  | .incM m => wordM 0x1480#14 m
  | .decaM m => wordM 0x1500#14 m
  | .decM m => wordM 0x1580#14 m
  | .rraM m => wordM 0x1900#14 m
  | .rrM m => wordM 0x1980#14 m
  | .rrcaM m => wordM 0x1B00#14 m
  | .rrcM m => wordM 0x1B80#14 m
  | .rlaM m => wordM 0x1800#14 m
  | .rlM m => wordM 0x1880#14 m
  | .rlcaM m => wordM 0x1A00#14 m
  | .rlcM m => wordM 0x1A80#14 m
  | .movAM m => wordM 0x0700#14 m
  | .movMA m => wordM 0x0080#14 m
  | .movAX x => wordX 0x0F00#14 x
  | .clrMI m i => wordB 0x3400#14 m i
  | .setMI m i => wordB 0x3000#14 m i
  | .jmp addr => wordA 0x2800#14 addr
  | .szM m => wordM 0x1080#14 m
  | .szaM m => wordM 0x1000#14 m
  | .szMI m i => wordB 0x3C00#14 m i
  | .snzMI m i => wordB 0x3800#14 m i
  | .sizM m => wordM 0x1680#14 m
  | .sdzM m => wordM 0x1780#14 m
  | .sizaM m => wordM 0x1600#14 m
  | .sdzaM m => wordM 0x1700#14 m
  | .call addr => wordA 0x2000#14 addr
  | .ret => 0x0003#14
  | .retAX x => wordX 0x0900#14 x
  | .reti => 0x0004#14
  | .tabrdcM m => wordM 0x1D00#14 m
  | .tabrdlM m => wordM 0x1D80#14 m
  | .nop => 0x0000#14
  | .clrM m => wordM 0x1F00#14 m
  | .setM m => wordM 0x1F80#14 m
  | .clrWdt => 0x0001#14
  | .clrWdt1 => 0x0001#14
  | .clrWdt2 => 0x0005#14
  | .swapM m => wordM 0x1180#14 m
  | .swapaM m => wordM 0x1100#14 m
  | .halt => 0x0002#14

/-- The instruction the decoder reads from a table row's bits `w`, `nbits` of them, on a part with the option word
2200H (log 2, log 3). A word is 14 bits (30_encoding R140): bits above bit 13 make it none. -/
def decodeTableWord (nbits w : Nat) : Option Instr :=
  if w % 2 ^ nbits < 2 ^ 14 then
    match decode Config.defaultOption (BitVec.ofNat 14 (w % 2 ^ nbits)) with
    | .instr i => some i
    | .reserved _ => none
  else none

end Sys2Proof
end

