-- ==== Sys2Proof/Machine/State.lean ====
section
/-!
DEFINITION. The state of the HT48R12C (10_state R30, 60_exceptions R454), its reset value and the reasons a step can
stop. The memories are canonical lists (Machine/Memory.lean). Between two steps the previous level of every edge
detector equals the pad's level (10_state R73), so one field holds both.
-/

namespace Sys2Proof.Machine

/-- The input pads the environment drives (60_exceptions R450). -/
inductive Pad where
  /-- The INT pad. -/
  | int
  /-- The TMR pad. -/
  | tmr
  /-- The RES pad, active low. -/
  | res
  /-- Line i of port A. -/
  | pa (i : Fin 8)
  /-- Line i of port B. -/
  | pb (i : Fin 8)
  /-- Line i of port C. -/
  | pc (i : Fin 2)
  deriving DecidableEq, Repr

/-- POWER_ON_DRAW (00_scope R7, 10_state R90, R92): the values power-on leaves in what the reset table marks "x" and in
RAM. `ram` is the bytes from 40H on; a byte beyond its end is 00H. -/
structure PowerOnDraw where
  acc : Byte
  mp : BitVec 7
  tblp : Byte
  tblh : BitVec 6
  tmrCnt : Byte
  tmrPre : Byte
  ov : Bool
  z : Bool
  ac : Bool
  c : Bool
  ram : List Byte
  deriving DecidableEq, Repr

/-- Which agent moves next (60_exceptions R454): a run is any interleaving of these (log 8). -/
inductive Event where
  /-- The CPU takes its step. -/
  | cpu
  /-- A pad takes a level. -/
  | pad (p : Pad) (level : Bool)
  /-- The WDT RC oscillator ticks (R436). -/
  | rcTick
  /-- Power is applied (70_reset R500). -/
  | powerOn (draw : PowerOnDraw)
  deriving DecidableEq, Repr

/-- The state of the machine (10_state R30), the pad levels (60_exceptions R454), the two PROMs (10_state R75, R76) and two
fields of the model's own, `env` and `freeCtr`. -/
structure State where
  /-- ACC, data address 05H (R31, R32). -/
  acc : Byte
  /-- The program counter (R33). -/
  pc : ProgAddr
  /-- The return stack, most recent entry last; its length is the depth (R39). -/
  stack : List ProgAddr
  /-- STATUS bit 0, C (R45). -/
  c : Bool
  /-- STATUS bit 1, AC (R45). -/
  ac : Bool
  /-- STATUS bit 2, Z (R45). -/
  z : Bool
  /-- STATUS bit 3, OV (R45). -/
  ov : Bool
  /-- STATUS bit 4, PD (R45, R50). -/
  pd : Bool
  /-- STATUS bit 5, TO (R45, R50). -/
  timedOut : Bool
  /-- MP, bits 6:0 (R55). -/
  mp : BitVec 7
  /-- TBLP (R57). -/
  tblp : Byte
  /-- TBLH, bits 5:0 (R58). -/
  tblh : BitVec 6
  /-- WDTS (R59). -/
  wdts : Byte
  /-- INTC bit 0, EMI (R60). -/
  emi : Bool
  /-- INTC bit 1, EEI (R60). -/
  eei : Bool
  /-- INTC bit 2, ETI (R60). -/
  eti : Bool
  /-- INTC bit 4, EIF (R60). -/
  eif : Bool
  /-- INTC bit 5, TF (R60). -/
  tf : Bool
  /-- TMR_CNT, the counter at 0DH (R62). -/
  tmrCnt : Byte
  /-- TMR_PRE, the preload register at 0DH (R62). -/
  tmrPre : Byte
  /-- TMRC bit 7, TM1 (R63). -/
  tm1 : Bool
  /-- TMRC bit 6, TM0 (R63). -/
  tm0 : Bool
  /-- TMRC bit 4, TON (R63). -/
  ton : Bool
  /-- TMRC bit 3, TE (R63). -/
  te : Bool
  /-- The output latch of port A (R65). -/
  pa : Byte
  /-- PAC (R65). -/
  pac : Byte
  /-- The output latch of port B (R66). -/
  pb : Byte
  /-- PBC (R66). -/
  pbc : Byte
  /-- The output latch of port C (R67). -/
  portc : BitVec 2
  /-- PCC (R67). -/
  pcc : BitVec 2
  /-- RAM 40H to 7FH (R77). -/
  ram : List Host.Cell
  /-- WDT_CNT, the 8 stages of the watchdog (R70). -/
  wdtCnt : Byte
  /-- WDT_PRE, the watchdog prescaler (R70). -/
  wdtPre : BitVec 7
  /-- CLR WDT1 has been executed (R71). -/
  cw1 : Bool
  /-- CLR WDT2 has been executed (R71). -/
  cw2 : Bool
  /-- HALT mode (R72). -/
  halted : Bool
  /-- A pulse width measurement is in progress (R73). -/
  pwmRun : Bool
  /-- The level of INT (R73, R450). -/
  intPad : Bool
  /-- The level of TMR (R73, R450). -/
  tmrPad : Bool
  /-- The level of RES (R450, R503). -/
  resPad : Bool
  /-- The levels outside the chip at port A (R73, R450). -/
  paPads : Byte
  /-- The levels outside the chip at port B (R450). -/
  pbPads : Byte
  /-- The levels outside the chip at port C (R450). -/
  pcPads : BitVec 2
  /-- PROGRAM (R76), a word beside its address. -/
  program : List (Nat × ProgWord)
  /-- OPTION, OP13..OP0 (R75). -/
  option : BitVec 14
  /-- The model's own: the moves to come; when it is empty the CPU moves (log 8). -/
  env : List Event
  /-- The model's own: how many free values were drawn (log 23). -/
  freeCtr : Nat
  deriving DecidableEq, Repr

/-- Why the machine stops with a fault. -/
inductive Fault where
  /-- RET, RET A,x or RETI with the stack empty: the spec says the model faults (10_state R41, U1). Raised by the
  three returns. Safe: the chip goes on, the model claims nothing. Log 12. -/
  | stackUnderflow
  deriving DecidableEq, Repr

/-- Why the model gives no meaning. -/
inductive Refusal where
  /-- An instruction whose arm of `exec` has no meaning yet. Raised by `exec` only. Safe. -/
  | notModelled (mnemonic : String)
  /-- The fetched word is no instruction (30_encoding R153, U2). Raised by the CPU step. Safe. Log 20. -/
  | reservedWord (w : ProgWord)
  /-- OP10 or OP11 is set (10_state R75, U12). Raised by the CPU step. Safe. Log 20. -/
  | reservedOption (opt : BitVec 14)
  deriving DecidableEq, Repr

/-- The machine after power-on (10_state R90, R91; 70_reset R501). What the table marks "x" is zero here, the pads are
released, the PROM and RAM list nothing and the option word is 2200H: DESIGN CHOICE, unsafe, log 2, 4, 5, 6, 7. -/
def State.reset : State where
  acc := 0
  pc := 0
  stack := []
  c := false
  ac := false
  z := false
  ov := false
  pd := false
  timedOut := false
  mp := 0
  tblp := 0
  tblh := 0
  wdts := 0x07
  emi := false
  eei := false
  eti := false
  eif := false
  tf := false
  tmrCnt := 0
  tmrPre := 0
  tm1 := false
  tm0 := false
  ton := false
  te := true
  pa := 0xFF
  pac := 0xFF
  pb := 0xFF
  pbc := 0xFF
  portc := 0b11
  pcc := 0b11
  ram := []
  wdtCnt := 0
  wdtPre := 0
  cw1 := false
  cw2 := false
  halted := false
  pwmRun := false
  intPad := true
  tmrPad := false
  resPad := true
  paPads := 0xFF
  pbPads := 0xFF
  pcPads := 0b11
  program := []
  option := Config.defaultOption
  env := []
  freeCtr := 0

end Sys2Proof.Machine
end

