-- ==== Sys2Proof/Machine/Memory.lean ====
section
/-!
DEFINITION. The two addressed memories: RAM (10_state R77) and PROGRAM (10_state R76), each a list of (address, value) in one canonical
form: addresses strictly rising inside the memory's range, no entry equal to what an unlisted address reads as. An unlisted
address reads 0 (DESIGN CHOICE, unsafe: log 4, log 5).
-/

namespace Sys2Proof.Machine

/-- The value at address `a`: the listed one, else 0. -/
def Memory.read {w : Nat} : List (Nat × BitVec w) → Nat → BitVec w
  | [], _ => 0
  | (k, v) :: rest, a => if k = a then v else Memory.read rest a

/-- Puts the entry (a, v) before the first entry of a higher address. -/
def Memory.insert {w : Nat} : List (Nat × BitVec w) → Nat → BitVec w → List (Nat × BitVec w)
  | [], a, v => [(a, v)]
  | (k, u) :: rest, a, v => if a < k then (a, v) :: (k, u) :: rest else (k, u) :: Memory.insert rest a v

/-- `m` with `v` at address `a`; writing 0 removes the entry. -/
def Memory.write {w : Nat} (m : List (Nat × BitVec w)) (a : Nat) (v : BitVec w) : List (Nat × BitVec w) :=
  if v = 0 then m.filter (fun e => e.1 != a) else Memory.insert (m.filter (fun e => e.1 != a)) a v

/-- The canonical form: addresses rise strictly from `lo` and stay below `hi`, no entry is 0. -/
def Memory.wf {w : Nat} (lo hi : Nat) : List (Nat × BitVec w) → Bool
  | [] => true
  | (a, v) :: rest => decide (lo ≤ a) && decide (a < hi) && decide (v ≠ 0) && Memory.wf (a + 1) hi rest

/-- The canonical list that holds `vs` from address `a` on. -/
def Memory.ofList {w : Nat} : Nat → List (BitVec w) → List (Nat × BitVec w)
  | _, [] => []
  | a, v :: vs => if v = 0 then Memory.ofList (a + 1) vs else (a, v) :: Memory.ofList (a + 1) vs

/-- One byte of RAM. Meant for 40H to 7FH (R77). -/
def ramAt (s : State) (a : DataAddr) : Byte := Memory.read s.ram a.toNat

/-- `ProgRead(t)` (20_memory R101). -/
def progRead (t : ProgAddr) (s : State) : ProgWord := Memory.read s.program t.toNat

/-- The RAM list is canonical over 40H to 7FH. -/
def ramWf (s : State) : Bool := Memory.wf 0x40 0x80 s.ram

/-- The PROGRAM list is canonical over 000H to 3FFH. -/
def programWf (s : State) : Bool := Memory.wf 0 0x400 s.program

end Sys2Proof.Machine
end

