-- ==== Sys2Proof/Machine/Operands.lean ====
section
/-!
DEFINITION. The operand forms (20_memory R107 to R109): where a data address leads, by the data memory map (R104), directly or
through MP; and the bit operand `[m].i`.
-/

namespace Sys2Proof.Machine

/-- What stands at a data address (20_memory R104). -/
inductive Loc where
  /-- An access of 00H through MP when MP is 00H (R108). -/
  | nowhere
  /-- 01H -/
  | mp
  /-- 05H -/
  | acc
  /-- 06H -/
  | pcl
  /-- 07H -/
  | tblp
  /-- 08H -/
  | tblh
  /-- 09H -/
  | wdts
  /-- 0AH -/
  | status
  /-- 0BH -/
  | intc
  /-- 0DH -/
  | tmr
  /-- 0EH -/
  | tmrc
  /-- 12H -/
  | pa
  /-- 13H -/
  | pac
  /-- 14H -/
  | pb
  /-- 15H -/
  | pbc
  /-- 16H, port C -/
  | portc
  /-- 17H -/
  | pcc
  /-- 40H to 7FH -/
  | ram (a : DataAddr)
  /-- 02H to 04H, 0CH, 0FH to 11H, 18H to 3FH (10_state R78). -/
  | reserved
  deriving DecidableEq, Repr

/-- The data memory map (20_memory R104) for an address that is not 00H. -/
def locate (a : DataAddr) : Loc :=
  if 0x40 ≤ a.toNat then .ram a
  else
    match a.toNat with
    | 0x00 => .nowhere
    | 0x01 => .mp
    | 0x05 => .acc
    | 0x06 => .pcl
    | 0x07 => .tblp
    | 0x08 => .tblh
    | 0x09 => .wdts
    | 0x0A => .status
    | 0x0B => .intc
    | 0x0D => .tmr
    | 0x0E => .tmrc
    | 0x12 => .pa
    | 0x13 => .pac
    | 0x14 => .pb
    | 0x15 => .pbc
    | 0x16 => .portc
    | 0x17 => .pcc
    | _ => .reserved

/-- `resolve(m)` (20_memory R108): 00H stands for the address in MP, and for none when MP is 00H. -/
def resolve (m : DataAddr) (s : State) : Option DataAddr :=
  if m ≠ 0 then some m else if s.mp ≠ 0 then some s.mp else none

/-- What an access of `[m]` reaches (20_memory R104, R108). -/
def target (m : DataAddr) (s : State) : Loc :=
  match resolve m s with
  | some a => locate a
  | none => .nowhere

/-- 2^i, the byte with bit i alone (45_bitop R276, R277). -/
def bitMask (i : BitVec 3) : Byte := 1#8 <<< i.toNat

/-- v[i] (00_scope R10). -/
def bitOf (v : Byte) (i : BitVec 3) : Bool := v.getLsbD i.toNat

end Sys2Proof.Machine
end

