-- ==== Sys2Proof/Machine/Ops.lean ====
section
/-!
DEFINITION. The named operations every meaning is built from: `MemRead` and `MemWrite` address by address (20_memory R110 to R112), the
stack (10_state R40, R41), skip (46_branch R286), interrupt entry and the returns (60_exceptions R412, R414).
-/

namespace Sys2Proof.Machine

/-- The value of a port read (20_memory R112): the pad where the control bit is 1, else the latch. It is also the level at
each pad (60_exceptions R452). -/
def portRead {w : Nat} (ctl pads latch : BitVec w) : BitVec w := (pads &&& ctl) ||| (latch &&& ~~~ctl)

/-- A read of 0AH: `0 : 0 : TO : PD : OV : Z : AC : C` (10_state R45). -/
def statusByte (s : State) : Byte :=
  0#2 ++ BitVec.ofBool s.timedOut ++ BitVec.ofBool s.pd ++ BitVec.ofBool s.ov ++ BitVec.ofBool s.z ++
    BitVec.ofBool s.ac ++ BitVec.ofBool s.c

/-- A read of 0BH: `0 : 0 : TF : EIF : 0 : ETI : EEI : EMI` (10_state R60). -/
def intcByte (s : State) : Byte :=
  0#2 ++ BitVec.ofBool s.tf ++ BitVec.ofBool s.eif ++ 0#1 ++ BitVec.ofBool s.eti ++ BitVec.ofBool s.eei ++
    BitVec.ofBool s.emi

/-- A read of 0EH: `TM1 : TM0 : 0 : TON : TE : 0 : 0 : 0` (10_state R63). -/
def tmrcByte (s : State) : Byte :=
  BitVec.ofBool s.tm1 ++ BitVec.ofBool s.tm0 ++ 0#1 ++ BitVec.ofBool s.ton ++ BitVec.ofBool s.te ++ 0#3

/-- The value a read of a location returns (20_memory R110). -/
def readLoc (l : Loc) (s : State) : Byte :=
  match l with
  | .nowhere => 0
  | .mp => 1#1 ++ s.mp
  | .acc => s.acc
  | .pcl => s.pc.extractLsb' 0 8
  | .tblp => s.tblp
  | .tblh => 0#2 ++ s.tblh
  | .wdts => s.wdts
  | .status => statusByte s
  | .intc => intcByte s
  | .tmr => s.tmrCnt
  | .tmrc => tmrcByte s
  | .pa => portRead s.pac s.paPads s.pa
  | .pac => s.pac
  | .pb => portRead s.pbc s.pbPads s.pb
  | .pbc => s.pbc
  | .portc => 0#6 ++ portRead s.pcc s.pcPads s.portc
  | .pcc => 0#6 ++ s.pcc
  | .ram a => ramAt s a
  | .reserved => 0

/-- The effect of a write to a location (20_memory R111). A write of TMRC that clears TON or leaves mode 11 ends a pulse width
measurement (60_exceptions R426, D35). -/
def writeLoc (l : Loc) (v : Byte) (s : State) : State :=
  match l with
  | .nowhere => s
  | .mp => { s with mp := v.extractLsb' 0 7 }
  | .acc => { s with acc := v }
  | .pcl => { s with pc := s.pc.extractLsb' 8 2 ++ v }
  | .tblp => { s with tblp := v }
  | .tblh => s
  | .wdts => { s with wdts := v }
  | .status => { s with ov := v.getLsbD 3, z := v.getLsbD 2, ac := v.getLsbD 1, c := v.getLsbD 0 }
  | .intc =>
    { s with tf := v.getLsbD 5, eif := v.getLsbD 4, eti := v.getLsbD 2, eei := v.getLsbD 1, emi := v.getLsbD 0 }
  | .tmr => { s with tmrPre := v, tmrCnt := if s.ton then s.tmrCnt else v }
  | .tmrc =>
    { s with
      tm1 := v.getLsbD 7, tm0 := v.getLsbD 6, ton := v.getLsbD 4, te := v.getLsbD 3
      pwmRun := s.pwmRun && v.getLsbD 4 && v.getLsbD 7 && v.getLsbD 6 }
  | .pa => { s with pa := v }
  | .pac => { s with pac := v }
  | .pb => { s with pb := v }
  | .pbc => { s with pbc := v }
  | .portc => { s with portc := v.extractLsb' 0 2 }
  | .pcc => { s with pcc := v.extractLsb' 0 2 }
  | .ram a => { s with ram := Memory.write s.ram a.toNat v }
  | .reserved => s

/-- `MemRead(m,1)` (20_memory R110). Reading TMR loses no tick (60_exceptions R428, log 21), so a read changes nothing. -/
def memRead (m : DataAddr) (s : State) : Byte := readLoc (target m s) s

/-- `MemWrite(m,1,v)` (20_memory R111). -/
def memWrite (m : DataAddr) (v : Byte) (s : State) : State := writeLoc (target m s) v s

/-- `ACC <- v`. -/
def setAcc (v : Byte) (s : State) : State := { s with acc := v }

/-- `EMI <- 1`. -/
def setEmi (s : State) : State := { s with emi := true }

/-- `pc <- t`. -/
def setPc (t : ProgAddr) (s : State) : State := { s with pc := t }

/-- `skip` (46_branch R286): the next instruction is discarded. -/
def skip (s : State) : State := { s with pc := s.pc + 1 }

/-- `if b then skip`. -/
def skipIf (b : Bool) (s : State) : State := if b then skip s else s

/-- `push(t)` (10_state R40): with two entries on the stack the first is lost. -/
def push (t : ProgAddr) (s : State) : State :=
  { s with stack := if s.stack.length < 2 then s.stack ++ [t] else [s.stack.getD 1 0, t] }

/-- `pop()` (10_state R41): the last entry and the state without it, or none when the stack is empty. -/
def pop (s : State) : Option (ProgAddr × State) :=
  match s.stack.getLast? with
  | some t => some (t, { s with stack := s.stack.dropLast })
  | none => none

/-- `pc <- pop()`, then `after` (46_branch R297 to R299); a return with the stack empty faults (10_state R41, log 12). -/
def returnThen (after : State → State) (s : State) : Host.Outcome State Fault Refusal :=
  match pop s with
  | some (t, s') => .next (after (setPc t s'))
  | none => .fault .stackUnderflow

/-- The two interrupt sources (60_exceptions R409). -/
inductive IntSource where
  /-- The external interrupt, vector 004H. -/
  | external
  /-- The Timer/event Counter interrupt, vector 008H. -/
  | timer
  deriving DecidableEq, Repr

/-- The vector of a source (20_memory R102, 60_exceptions R409). -/
def vector : IntSource → ProgAddr
  | .external => 0x004
  | .timer => 0x008

/-- `ext_ready` (60_exceptions R410). -/
def extReady (s : State) : Bool := s.emi && s.eei && s.eif && decide (s.stack.length < 2)

/-- `tmr_ready` (60_exceptions R410). -/
def tmrReady (s : State) : Bool := s.emi && s.eti && s.tf && decide (s.stack.length < 2)

/-- The interrupt an instruction boundary acknowledges, external first (60_exceptions R410, R413). -/
def pendingInterrupt (s : State) : Option IntSource :=
  if extReady s then some .external else if tmrReady s then some .timer else none

/-- `acknowledge(vector)` (60_exceptions R412), the whole of interrupt entry: `pc` is pushed, the source's request flag and EMI are
cleared, and `pc` goes to the vector. -/
def acknowledge (src : IntSource) (s : State) : State :=
  { push s.pc s with
    pc := vector src
    emi := false
    eif := if src = .external then false else s.eif
    tf := if src = .timer then false else s.tf }

end Sys2Proof.Machine
end

