-- ==== Sys2Proof/Machine/Flags.lean ====
section
/-!
DEFINITION. The flag computations (10_state R46 to R51, 40_arithmetic R200) and the two ways an instruction delivers a
result with flags: to ACC, or to data memory, where STATUS as destination is the open case U3.
-/

namespace Sys2Proof.Machine

/-- What the adder gives: the sum and C, AC, OV (40_arithmetic R200). -/
structure Sum where
  r : Byte
  c : Bool
  ac : Bool
  ov : Bool
  deriving DecidableEq, Repr

/-- `add8(a, b, cin)` (40_arithmetic R200). -/
def add8 (a b : Byte) (cin : Bool) : Sum :=
  let n := cin.toNat
  let c7 := decide (256 ≤ a.toNat + b.toNat + n)
  let c6 := decide (128 ≤ a.toNat % 128 + b.toNat % 128 + n)
  { r := BitVec.ofNat 8 (a.toNat + b.toNat + n)
    c := c7
    ac := decide (16 ≤ a.toNat % 16 + b.toNat % 16 + n)
    ov := c6 ^^ c7 }

/-- Which of C, AC, Z, OV an instruction writes (10_state R49), and with what. -/
structure FlagWrite where
  c : Option Bool := none
  ac : Option Bool := none
  z : Option Bool := none
  ov : Option Bool := none
  deriving DecidableEq, Repr

/-- The flags of an addition or subtraction: all four (10_state R49). -/
def sumFlags (o : Sum) : FlagWrite :=
  { c := some o.c, ac := some o.ac, z := some (o.r == 0), ov := some o.ov }

/-- Z from the result, alone (10_state R48, R49). -/
def zFlag (r : Byte) : FlagWrite := { z := some (r == 0) }

/-- C alone (10_state R46, R49). -/
def cFlag (b : Bool) : FlagWrite := { c := some b }

/-- Writes the flags named. -/
def setFlags (f : FlagWrite) (s : State) : State :=
  { s with c := f.c.getD s.c, ac := f.ac.getD s.ac, z := f.z.getD s.z, ov := f.ov.getD s.ov }

/-- The result goes to ACC, the flags to STATUS. -/
def toAcc (r : Byte) (f : FlagWrite) (s : State) : State := setFlags f (setAcc r s)

/-- C, AC, Z and OV each at a free value, nothing else changed but the counter of free values (log 13). -/
def openFlags (s : State) : State :=
  { s with
    c := (Config.statusClash s.freeCtr).getLsbD 0
    ac := (Config.statusClash s.freeCtr).getLsbD 1
    z := (Config.statusClash s.freeCtr).getLsbD 2
    ov := (Config.statusClash s.freeCtr).getLsbD 3
    freeCtr := s.freeCtr + 1 }

/-- The result goes to `[m]`, the flags to STATUS. Where `[m]` is STATUS itself the spec does not say which of the two writes
wins and bars assuming that either does (10_state R52, U3): all four flags are free values, TO and PD stay (log 13). -/
def toMem (m : DataAddr) (r : Byte) (f : FlagWrite) (s : State) : State :=
  if target m s = .status then openFlags s else setFlags f (memWrite m r s)

end Sys2Proof.Machine
end

