-- ==== Sys2Proof/Machine/Timer.lean ====
section
/-!
DEFINITION. The Timer/event Counter (60_exceptions R420 to R429).
-/

namespace Sys2Proof.Machine

/-- The operating modes (10_state R63, 60_exceptions R421). -/
inductive TimerMode where
  /-- 00, not described (U9). -/
  | unused
  /-- 01, active edges of the TMR pad. -/
  | eventCount
  /-- 10, the instruction clock. -/
  | timer
  /-- 11, the instruction clock gated by the TMR pad. -/
  | pulseWidth
  deriving DecidableEq, Repr

/-- The mode TM1 TM0 select, TM1 the left digit (R421, D13). -/
def timerMode (s : State) : TimerMode :=
  match s.tm1, s.tm0 with
  | false, false => .unused
  | false, true => .eventCount
  | true, false => .timer
  | true, true => .pulseWidth

/-- `timer_tick` (R423): at FFH the counter is reloaded and TF is set. -/
def timerTick (s : State) : State :=
  if s.tmrCnt = 0xFF then { s with tmrCnt := s.tmrPre, tf := true } else { s with tmrCnt := s.tmrCnt + 1 }

/-- A clock edge in the unused mode with TON = 1: the spec describes nothing (R421, U9), so the count and whether TF
is set are free values (log 15). -/
def unusedModeTick (s : State) : State :=
  { s with
    tmrCnt := Config.unusedModeCount s.freeCtr
    tf := s.tf || Config.unusedModeOverflow s.freeCtr
    freeCtr := s.freeCtr + 1 }

/-- What one instruction cycle does to the timer (R424, R426). -/
def timerClock (s : State) : State :=
  match timerMode s with
  | .timer => if s.ton then timerTick s else s
  | .pulseWidth => if s.pwmRun then timerTick s else s
  | .eventCount => s
  | .unused => if s.ton then unusedModeTick s else s

/-- What a change of the TMR pad to `level` does to the timer: the active edge of event count mode (R425), the start and the stop
edge of pulse width mode, whose sense of TE is the opposite (R426, D14). -/
def timerEdge (level : Bool) (s : State) : State :=
  match timerMode s with
  | .eventCount => if s.ton && level != s.te then timerTick s else s
  | .pulseWidth =>
    if s.ton && !s.pwmRun && level == s.te then { s with pwmRun := true }
    else if s.pwmRun && level != s.te then { s with pwmRun := false, ton := false }
    else s
  | .timer => s
  | .unused => if s.ton then unusedModeTick s else s

end Sys2Proof.Machine
end

