-- ==== Sys2Proof/Machine/Reset.lean ====
section
/-!
DEFINITION. The five resets (10_state R90, R91; 70_reset R500, R501).
-/

namespace Sys2Proof.Machine

/-- The kinds of reset (70_reset R500). -/
inductive ResetKind where
  /-- Supply applied. -/
  | powerOn (draw : PowerOnDraw)
  /-- RES low while the CPU runs. -/
  | resNormal
  /-- RES low in HALT mode. -/
  | resHalt
  /-- WDT time-out while the CPU runs. -/
  | wdtNormal
  /-- WDT time-out in HALT mode, the warm reset. -/
  | wdtHalt
  deriving DecidableEq, Repr

/-- What power-on, RES and the WDT time-out of a running CPU have in common (70_reset R501). -/
def resetCommon (s : State) : State :=
  { s with
    pc := 0, stack := []
    emi := false, eei := false, eti := false, eif := false, tf := false
    tm1 := false, tm0 := false, ton := false, te := true, pwmRun := false
    wdts := 0x07
    pa := 0xFF, pac := 0xFF, pb := 0xFF, pbc := 0xFF, portc := 0b11, pcc := 0b11
    wdtCnt := 0, wdtPre := 0, cw1 := false, cw2 := false
    halted := false }

/-- The effect of each kind (70_reset R501). -/
def applyReset (k : ResetKind) (s : State) : State :=
  match k with
  | .powerOn d =>
    { resetCommon s with
      timedOut := false, pd := false
      acc := d.acc, mp := d.mp, tblp := d.tblp, tblh := d.tblh, tmrCnt := d.tmrCnt, tmrPre := d.tmrPre
      ov := d.ov, z := d.z, ac := d.ac, c := d.c
      ram := Memory.ofList 0x40 (d.ram.take 64) }
  | .resNormal => resetCommon s
  | .resHalt => { resetCommon s with timedOut := false, pd := true }
  | .wdtNormal => { resetCommon s with timedOut := true }
  | .wdtHalt =>
    { s with
      pc := 0, stack := [], timedOut := true, halted := false
      wdtCnt := 0, wdtPre := 0, cw1 := false, cw2 := false }

end Sys2Proof.Machine
end

