-- ==== Sys2Proof/Machine/Watchdog.lean ====
section
/-!
DEFINITION. The Watchdog Timer (60_exceptions R430 to R438), its clearing, and the ticks of an instruction's cycles (60_exceptions R454).
-/

namespace Sys2Proof.Machine

/-- OP13 = 0: the WDT is enabled (10_state R75). -/
def wdtEnabled (s : State) : Bool := !s.option.getLsbD 13

/-- The WDT counts instruction cycles: OP12 = 1 (R433). -/
def wdtOnInstrClock (s : State) : Bool := wdtEnabled s && s.option.getLsbD 12

/-- The WDT counts the ticks of its RC oscillator: OP12 = 0 (R436). -/
def wdtOnRc (s : State) : Bool := wdtEnabled s && !s.option.getLsbD 12

/-- OP9 = 1: `CLR WDT` is the active clearing instruction; OP9 = 0: the pair is (10_state R75). -/
def oneTimesClear (s : State) : Bool := s.option.getLsbD 9

/-- The prescaler's ratio from WS2..WS0 (10_state R59, R431). -/
def wdtRatio (s : State) : Nat := 2 ^ (s.wdts.extractLsb' 0 3).toNat

/-- `WDT_CNT <- 0; WDT_PRE <- 0` (R437). -/
def clearWdt (s : State) : State := { s with wdtCnt := 0, wdtPre := 0 }

/-- A clearing instruction that clears: the WDT, TO and PD (48_misc R324). -/
def clearWdtAndFlags (s : State) : State := { clearWdt s with timedOut := false, pd := false }

/-- `wdt_timeout`: a chip reset while the CPU runs (R434), the warm reset while it is halted (R435). -/
def wdtTimeout (s : State) : State := applyReset (if s.halted then .wdtHalt else .wdtNormal) s

/-- `wdt_tick` (R432), and whether it found a time-out. -/
def wdtTick (s : State) : State × Bool :=
  if s.wdtCnt + 1 = 0 then
    if wdtRatio s ≤ s.wdtPre.toNat + 1 then (wdtTimeout s, true)
    else ({ s with wdtCnt := 0, wdtPre := s.wdtPre + 1 }, false)
  else ({ s with wdtCnt := s.wdtCnt + 1 }, false)

/-- The WDT counts the cycles of what the CPU has just done: it is on the instruction clock (R433), and that was not `HALT`, after
which the WDT stands at zero for the wake-up (90_conflicts C11, log 18). -/
def wdtTakesCycles (s : State) : Bool := wdtOnInstrClock s && !s.halted

/-- `n` instruction cycles, one at a time: the timer's tick, then the WDT's; a time-out drops the ticks left (R454, D15). -/
def runTicks : Nat → State → State
  | 0, s => s
  | n + 1, s =>
    let t := timerClock s
    if wdtTakesCycles t then
      match wdtTick t with
      | (t', true) => t'
      | (t', false) => runTicks n t'
    else runTicks n t

/-- Something counts the cycles of what the CPU has just done. -/
def clocked (s : State) : Bool := s.ton || s.pwmRun || wdtTakesCycles s

/-- The ticks of what the CPU has just done in `n` cycles (R424, R426, R433, R454), the cycle of `HALT` among them: a halted `s` is the
state `HALT` leaves, for a CPU that waits in HALT mode does nothing and takes no cycle (10_state R72, R440). A timer overflow
in that cycle sets TF and wakes nothing (log 18). -/
def applyTicks (n : Nat) (s : State) : State := if clocked s then runTicks n s else s

end Sys2Proof.Machine
end

