-- ==== Sys2Proof/Machine/Cycles.lean ====
section
/-!
DEFINITION. Cycles per instruction (70_reset R546): the ticks an instruction gives the timer and a WDT on the instruction clock.
-/

namespace Sys2Proof.Machine

/-- Note (1): one more cycle when the destination is PCL. -/
def pclCycle (m : DataAddr) (s : State) : Nat := if target m s = .pcl then 1 else 0

/-- Note (2): one more cycle when the next instruction is skipped. -/
def skipCycle (b : Bool) : Nat := if b then 1 else 0

/-- The cycles of `i` executed in `s`, whose `pc` is already the next instruction's address (70_reset R546). SIZ and SDZ that
load PCL and skip at once take both notes (note (3), log 25). -/
def cycles (i : Instr) (s : State) : Nat :=
  match i with
  | .addAM _ => 1
  | .addmAM m => 1 + pclCycle m s
  | .addAX _ => 1
  | .adcAM _ => 1
  | .adcmAM m => 1 + pclCycle m s
  | .subAX _ => 1
  | .subAM _ => 1
  | .submAM m => 1 + pclCycle m s
  | .sbcAM _ => 1
  | .sbcmAM m => 1 + pclCycle m s
  | .daaM m => 1 + pclCycle m s
  | .andAM _ => 1
  | .orAM _ => 1
  | .xorAM _ => 1
  | .andmAM m => 1 + pclCycle m s
  | .ormAM m => 1 + pclCycle m s
  | .xormAM m => 1 + pclCycle m s
  | .andAX _ => 1
  | .orAX _ => 1
  | .xorAX _ => 1
  | .cplM m => 1 + pclCycle m s
  | .cplaM _ => 1
  | .incaM _ => 1
  | .incM m => 1 + pclCycle m s
  | .decaM _ => 1
  | .decM m => 1 + pclCycle m s
  | .rraM _ => 1
  | .rrM m => 1 + pclCycle m s
  | .rrcaM _ => 1
  | .rrcM m => 1 + pclCycle m s
  | .rlaM _ => 1
  | .rlM m => 1 + pclCycle m s
  | .rlcaM _ => 1
  | .rlcM m => 1 + pclCycle m s
  | .movAM _ => 1
  | .movMA m => 1 + pclCycle m s
  | .movAX _ => 1
  | .clrMI m _ => 1 + pclCycle m s
  | .setMI m _ => 1 + pclCycle m s
  | .jmp _ => 2
  | .szM m => 1 + skipCycle (memRead m s == 0)
  | .szaM m => 1 + skipCycle (memRead m s == 0)
  | .szMI m i => 1 + skipCycle (!bitOf (memRead m s) i)
  | .snzMI m i => 1 + skipCycle (bitOf (memRead m s) i)
  | .sizM m => 1 + skipCycle (memRead m s + 1 == 0) + pclCycle m s
  | .sdzM m => 1 + skipCycle (memRead m s - 1 == 0) + pclCycle m s
  | .sizaM m => 1 + skipCycle (memRead m s + 1 == 0)
  | .sdzaM m => 1 + skipCycle (memRead m s - 1 == 0)
  | .call _ => 2
  | .ret => 2
  | .retAX _ => 2
  | .reti => 2
  | .tabrdcM m => 2 + pclCycle m s
  | .tabrdlM m => 2 + pclCycle m s
  | .nop => 1
  | .clrM m => 1 + pclCycle m s
  | .setM m => 1 + pclCycle m s
  | .clrWdt => 1
  | .clrWdt1 => 1
  | .clrWdt2 => 1
  | .swapM m => 1 + pclCycle m s
  | .swapaM _ => 1
  | .halt => 1

end Sys2Proof.Machine
end

