-- ==== Sys2Proof/Machine/Arithmetic.lean ====
section
/-!
DEFINITION. The arithmetic instructions (40_arithmetic R201 to R211). `s.pc` is already the next instruction's address (10_state R35).
-/

namespace Sys2Proof.Machine

/-- A sum to ACC with its four flags. -/
def sumToAcc (o : Sum) (s : State) : State := toAcc o.r (sumFlags o) s

/-- A sum to `[m]` with its four flags. -/
def sumToMem (m : DataAddr) (o : Sum) (s : State) : State := toMem m o.r (sumFlags o) s

/-- `ADD A,[m]` (R201). -/
def execAddAM (m : DataAddr) (s : State) : Host.Outcome State Fault Refusal :=
  .next (sumToAcc (add8 s.acc (memRead m s) false) s)

/-- `ADDM A,[m]` (R202). -/
def execAddmAM (m : DataAddr) (s : State) : Host.Outcome State Fault Refusal :=
  .next (sumToMem m (add8 s.acc (memRead m s) false) s)

/-- `ADD A,x` (R203). -/
def execAddAX (x : Byte) (s : State) : Host.Outcome State Fault Refusal :=
  .next (sumToAcc (add8 s.acc x false) s)

/-- `ADC A,[m]` (R204). -/
def execAdcAM (m : DataAddr) (s : State) : Host.Outcome State Fault Refusal :=
  .next (sumToAcc (add8 s.acc (memRead m s) s.c) s)

/-- `ADCM A,[m]` (R205). -/
def execAdcmAM (m : DataAddr) (s : State) : Host.Outcome State Fault Refusal :=
  .next (sumToMem m (add8 s.acc (memRead m s) s.c) s)

/-- `SUB A,x` (R206): ACC + ~x + 1. -/
def execSubAX (x : Byte) (s : State) : Host.Outcome State Fault Refusal :=
  .next (sumToAcc (add8 s.acc (~~~x) true) s)

/-- `SUB A,[m]` (R207): ACC + ~[m] + 1. -/
def execSubAM (m : DataAddr) (s : State) : Host.Outcome State Fault Refusal :=
  .next (sumToAcc (add8 s.acc (~~~memRead m s) true) s)

/-- `SUBM A,[m]` (R208): the new [m] is ACC minus the old [m]. -/
def execSubmAM (m : DataAddr) (s : State) : Host.Outcome State Fault Refusal :=
  .next (sumToMem m (add8 s.acc (~~~memRead m s) true) s)

/-- `SBC A,[m]` (R209): ACC + ~[m] + C. -/
def execSbcAM (m : DataAddr) (s : State) : Host.Outcome State Fault Refusal :=
  .next (sumToAcc (add8 s.acc (~~~memRead m s) s.c) s)

/-- `SBCM A,[m]` (R210). -/
def execSbcmAM (m : DataAddr) (s : State) : Host.Outcome State Fault Refusal :=
  .next (sumToMem m (add8 s.acc (~~~memRead m s) s.c) s)

/-- The disputed inputs of DAA: low nibble above 9 together with AC (R211, U4). -/
def daaIsDisputed (acc : Byte) (ac : Bool) : Bool := decide (9 < acc.toNat % 16) && ac

/-- The decimal adjustment of R211 with its corrected last line (C8, D12): the byte and the new C. -/
def daaAdjust (acc : Byte) (ac c : Bool) : Byte × Bool :=
  let lo := acc.toNat % 16
  let hi := acc.toNat / 16
  let adjustLow := decide (9 < lo) || ac
  let rlo := if adjustLow then (lo + 6) % 16 else lo
  let ac1 := if adjustLow && !ac then 1 else 0
  if 9 < hi + ac1 ∨ c = true then (BitVec.ofNat 8 ((hi + 6 + ac1) % 16 * 16 + rlo), true)
  else (BitVec.ofNat 8 ((hi + ac1) % 16 * 16 + rlo), c)

/-- What DAA gives: the parameter DAA_DISPUTED on the disputed inputs (log 16), else the adjustment. -/
def daaResult (acc : Byte) (ac c : Bool) : Byte × Bool :=
  if daaIsDisputed acc ac then Config.daaDisputed acc ac c else daaAdjust acc ac c

/-- `DAA [m]` (R211): ACC is not changed. -/
def execDaaM (m : DataAddr) (s : State) : Host.Outcome State Fault Refusal :=
  let d := daaResult s.acc s.ac s.c
  .next (toMem m d.1 (cFlag d.2) s)

end Sys2Proof.Machine
end

