-- ==== Sys2Proof/Machine/Branch.lean ====
section
/-!
DEFINITION. The branches (46_branch R285 to R299): jump, call, returns and the conditional skips. None writes a flag of STATUS.
-/

namespace Sys2Proof.Machine

/-- The result goes to `[m]` and a zero result skips (R292, R293). Where it loads PCL and skips at once the spec gives no
order of the two (U6): `pc` is a free value (log 14). -/
def storeAndSkip (m : DataAddr) (r : Byte) (s : State) : State :=
  if r = 0 ∧ target m s = .pcl then { s with pc := Config.pclSkipTarget s.freeCtr, freeCtr := s.freeCtr + 1 }
  else skipIf (r == 0) (memWrite m r s)

/-- `JMP addr` (R287). -/
def execJmp (addr : ProgAddr) (s : State) : Host.Outcome State Fault Refusal := .next (setPc addr s)

/-- `SZ [m]` (R288). -/
def execSzM (m : DataAddr) (s : State) : Host.Outcome State Fault Refusal := .next (skipIf (memRead m s == 0) s)

/-- `SZA [m]` (R289). -/
def execSzaM (m : DataAddr) (s : State) : Host.Outcome State Fault Refusal :=
  let v := memRead m s
  .next (skipIf (v == 0) (setAcc v s))

/-- `SZ [m].i` (R290). -/
def execSzMI (m : DataAddr) (i : BitVec 3) (s : State) : Host.Outcome State Fault Refusal :=
  .next (skipIf (!bitOf (memRead m s) i) s)

/-- `SNZ [m].i` (R291). -/
def execSnzMI (m : DataAddr) (i : BitVec 3) (s : State) : Host.Outcome State Fault Refusal :=
  .next (skipIf (bitOf (memRead m s) i) s)

/-- `SIZ [m]` (R292). -/
def execSizM (m : DataAddr) (s : State) : Host.Outcome State Fault Refusal :=
  .next (storeAndSkip m (memRead m s + 1) s)

/-- `SDZ [m]` (R293). -/
def execSdzM (m : DataAddr) (s : State) : Host.Outcome State Fault Refusal :=
  .next (storeAndSkip m (memRead m s - 1) s)

/-- `SIZA [m]` (R294). -/
def execSizaM (m : DataAddr) (s : State) : Host.Outcome State Fault Refusal :=
  let r := memRead m s + 1
  .next (skipIf (r == 0) (setAcc r s))

/-- `SDZA [m]` (R295). -/
def execSdzaM (m : DataAddr) (s : State) : Host.Outcome State Fault Refusal :=
  let r := memRead m s - 1
  .next (skipIf (r == 0) (setAcc r s))

/-- `CALL addr` (R296): pushes the address of the instruction after it. -/
def execCall (addr : ProgAddr) (s : State) : Host.Outcome State Fault Refusal := .next (setPc addr (push s.pc s))

/-- `RET` (R297). -/
def execRet (s : State) : Host.Outcome State Fault Refusal := returnThen id s

/-- `RET A,x` (R299). -/
def execRetAX (x : Byte) (s : State) : Host.Outcome State Fault Refusal := returnThen (setAcc x) s

/-- `RETI` (R298): EMI is set. -/
def execReti (s : State) : Host.Outcome State Fault Refusal := returnThen setEmi s

end Sys2Proof.Machine
end

