-- ==== Sys2Proof/Machine/DataMove.lean ====
section
/-!
DEFINITION. The data moves (44_datamove R265 to R268) and the bit operations (45_bitop R275 to R277). None writes a flag of its own.
-/

namespace Sys2Proof.Machine

/-- `MOV A,[m]` (R266). -/
def execMovAM (m : DataAddr) (s : State) : Host.Outcome State Fault Refusal := .next (setAcc (memRead m s) s)

/-- `MOV [m],A` (R267). -/
def execMovMA (m : DataAddr) (s : State) : Host.Outcome State Fault Refusal := .next (memWrite m s.acc s)

/-- `MOV A,x` (R268). -/
def execMovAX (x : Byte) (s : State) : Host.Outcome State Fault Refusal := .next (setAcc x s)

/-- `CLR [m].i` (R276), a read-modify-write of the whole byte (R275). -/
def execClrMI (m : DataAddr) (i : BitVec 3) (s : State) : Host.Outcome State Fault Refusal :=
  .next (memWrite m (memRead m s &&& ~~~bitMask i) s)

/-- `SET [m].i` (R277), a read-modify-write of the whole byte (R275). -/
def execSetMI (m : DataAddr) (i : BitVec 3) (s : State) : Host.Outcome State Fault Refusal :=
  .next (memWrite m (memRead m s ||| bitMask i) s)

end Sys2Proof.Machine
end

