-- ==== Sys2Proof/Machine/Logic.lean ====
section
/-!
DEFINITION. The logic instructions (41_logic R220 to R231): each writes its result and Z.
-/

namespace Sys2Proof.Machine

/-- A result to ACC with Z. -/
def zToAcc (r : Byte) (s : State) : State := toAcc r (zFlag r) s

/-- A result to `[m]` with Z. -/
def zToMem (m : DataAddr) (r : Byte) (s : State) : State := toMem m r (zFlag r) s

/-- `AND A,[m]` (R221). -/
def execAndAM (m : DataAddr) (s : State) : Host.Outcome State Fault Refusal :=
  .next (zToAcc (s.acc &&& memRead m s) s)

/-- `OR A,[m]` (R222). -/
def execOrAM (m : DataAddr) (s : State) : Host.Outcome State Fault Refusal :=
  .next (zToAcc (s.acc ||| memRead m s) s)

/-- `XOR A,[m]` (R223). -/
def execXorAM (m : DataAddr) (s : State) : Host.Outcome State Fault Refusal :=
  .next (zToAcc (s.acc ^^^ memRead m s) s)

/-- `ANDM A,[m]` (R224). -/
def execAndmAM (m : DataAddr) (s : State) : Host.Outcome State Fault Refusal :=
  .next (zToMem m (s.acc &&& memRead m s) s)

/-- `ORM A,[m]` (R225). -/
def execOrmAM (m : DataAddr) (s : State) : Host.Outcome State Fault Refusal :=
  .next (zToMem m (s.acc ||| memRead m s) s)

/-- `XORM A,[m]` (R226). -/
def execXormAM (m : DataAddr) (s : State) : Host.Outcome State Fault Refusal :=
  .next (zToMem m (s.acc ^^^ memRead m s) s)

/-- `AND A,x` (R227). -/
def execAndAX (x : Byte) (s : State) : Host.Outcome State Fault Refusal := .next (zToAcc (s.acc &&& x) s)

/-- `OR A,x` (R228). -/
def execOrAX (x : Byte) (s : State) : Host.Outcome State Fault Refusal := .next (zToAcc (s.acc ||| x) s)

/-- `XOR A,x` (R229). -/
def execXorAX (x : Byte) (s : State) : Host.Outcome State Fault Refusal := .next (zToAcc (s.acc ^^^ x) s)

/-- `CPL [m]` (R230). -/
def execCplM (m : DataAddr) (s : State) : Host.Outcome State Fault Refusal := .next (zToMem m (~~~memRead m s) s)

/-- `CPLA [m]` (R231). -/
def execCplaM (m : DataAddr) (s : State) : Host.Outcome State Fault Refusal := .next (zToAcc (~~~memRead m s) s)

end Sys2Proof.Machine
end

