-- ==== Sys2Proof/Machine/IncDec.lean ====
section
/-!
DEFINITION. Increment and decrement (42_incdec R240 to R244): modulo 256, Z alone.
-/

namespace Sys2Proof.Machine

/-- `INCA [m]` (R241). -/
def execIncaM (m : DataAddr) (s : State) : Host.Outcome State Fault Refusal := .next (zToAcc (memRead m s + 1) s)

/-- `INC [m]` (R242). -/
def execIncM (m : DataAddr) (s : State) : Host.Outcome State Fault Refusal := .next (zToMem m (memRead m s + 1) s)

/-- `DECA [m]` (R243). -/
def execDecaM (m : DataAddr) (s : State) : Host.Outcome State Fault Refusal := .next (zToAcc (memRead m s - 1) s)

/-- `DEC [m]` (R244). -/
def execDecM (m : DataAddr) (s : State) : Host.Outcome State Fault Refusal := .next (zToMem m (memRead m s - 1) s)

end Sys2Proof.Machine
end

