-- ==== Sys2Proof/Machine/Misc.lean ====
section
/-!
DEFINITION. The miscellaneous instructions (48_misc R320 to R329).
-/

namespace Sys2Proof.Machine

/-- The byte with its nibbles interchanged (R327). -/
def swapNibbles (v : Byte) : Byte := v.extractLsb' 0 4 ++ v.extractLsb' 4 4

/-- `NOP` (R321): nothing; the increment of `pc` is every instruction's (10_state R34). -/
def execNop (s : State) : Host.Outcome State Fault Refusal := .next s

/-- `CLR [m]` (R322): it does not read [m]. -/
def execClrM (m : DataAddr) (s : State) : Host.Outcome State Fault Refusal := .next (memWrite m 0x00 s)

/-- `SET [m]` (R323). -/
def execSetM (m : DataAddr) (s : State) : Host.Outcome State Fault Refusal := .next (memWrite m 0xFF s)

/-- `CLR WDT` (R324): active with OP9 = 1, nothing with the WDT disabled (D10, D37). -/
def execClrWdt (s : State) : Host.Outcome State Fault Refusal :=
  .next (if wdtEnabled s && oneTimesClear s then clearWdtAndFlags s else s)

/-- `CLR WDT1` (R325): completes the pair after CLR WDT2, else leaves its mark. -/
def execClrWdt1 (s : State) : Host.Outcome State Fault Refusal :=
  .next
    (if wdtEnabled s && !oneTimesClear s then
      if s.cw2 then { clearWdtAndFlags s with cw1 := false, cw2 := false } else { s with cw1 := true }
    else s)

/-- `CLR WDT2` (R326): completes the pair after CLR WDT1, else leaves its mark. -/
def execClrWdt2 (s : State) : Host.Outcome State Fault Refusal :=
  .next
    (if wdtEnabled s && !oneTimesClear s then
      if s.cw1 then { clearWdtAndFlags s with cw1 := false, cw2 := false } else { s with cw2 := true }
    else s)

/-- `SWAP [m]` (R327). -/
def execSwapM (m : DataAddr) (s : State) : Host.Outcome State Fault Refusal :=
  .next (memWrite m (swapNibbles (memRead m s)) s)

/-- `SWAPA [m]` (R328). -/
def execSwapaM (m : DataAddr) (s : State) : Host.Outcome State Fault Refusal :=
  .next (setAcc (swapNibbles (memRead m s)) s)

/-- `HALT` (R329): the WDT is cleared without condition (C11), PD is set, TO cleared, and the CPU stops. -/
def execHalt (s : State) : Host.Outcome State Fault Refusal :=
  .next { clearWdt s with pd := true, timedOut := false, halted := true }

end Sys2Proof.Machine
end

