-- ==== Sys2Proof/Machine/Rotate.lean ====
section
/-!
DEFINITION. The rotates (43_rotate R250 to R258): by one bit; the plain ones write no flag, those through carry write C
alone, and take the C from before the instruction.
-/

namespace Sys2Proof.Machine

/-- `b : v[7:1]`, the byte of a right rotate that takes in `b` at bit 7. -/
def rotateRightIn (b : Bool) (v : Byte) : Byte := BitVec.ofBool b ++ v.extractLsb' 1 7

/-- `v[6:0] : b`, the byte of a left rotate that takes in `b` at bit 0. -/
def rotateLeftIn (b : Bool) (v : Byte) : Byte := v.extractLsb' 0 7 ++ BitVec.ofBool b

/-- `RRA [m]` (R251). -/
def execRraM (m : DataAddr) (s : State) : Host.Outcome State Fault Refusal :=
  let v := memRead m s
  .next (setAcc (rotateRightIn (v.getLsbD 0) v) s)

/-- `RR [m]` (R252). -/
def execRrM (m : DataAddr) (s : State) : Host.Outcome State Fault Refusal :=
  let v := memRead m s
  .next (memWrite m (rotateRightIn (v.getLsbD 0) v) s)

/-- `RRCA [m]` (R253). -/
def execRrcaM (m : DataAddr) (s : State) : Host.Outcome State Fault Refusal :=
  let v := memRead m s
  .next (toAcc (rotateRightIn s.c v) (cFlag (v.getLsbD 0)) s)

/-- `RRC [m]` (R254). -/
def execRrcM (m : DataAddr) (s : State) : Host.Outcome State Fault Refusal :=
  let v := memRead m s
  .next (toMem m (rotateRightIn s.c v) (cFlag (v.getLsbD 0)) s)

/-- `RLA [m]` (R255). -/
def execRlaM (m : DataAddr) (s : State) : Host.Outcome State Fault Refusal :=
  let v := memRead m s
  .next (setAcc (rotateLeftIn (v.getLsbD 7) v) s)

/-- `RL [m]` (R256). -/
def execRlM (m : DataAddr) (s : State) : Host.Outcome State Fault Refusal :=
  let v := memRead m s
  .next (memWrite m (rotateLeftIn (v.getLsbD 7) v) s)

/-- `RLCA [m]` (R257). -/
def execRlcaM (m : DataAddr) (s : State) : Host.Outcome State Fault Refusal :=
  let v := memRead m s
  .next (toAcc (rotateLeftIn s.c v) (cFlag (v.getLsbD 7)) s)

/-- `RLC [m]` (R258). -/
def execRlcM (m : DataAddr) (s : State) : Host.Outcome State Fault Refusal :=
  let v := memRead m s
  .next (toMem m (rotateLeftIn s.c v) (cFlag (v.getLsbD 7)) s)

end Sys2Proof.Machine
end

