-- ==== Sys2Proof/Machine/TableRead.lean ====
section
/-!
DEFINITION. The table reads (47_tableread R309 to R311).
-/

namespace Sys2Proof.Machine

/-- The word at table address `t`: bits 7:0 to `[m]`, bits 13:8 to TBLH (R309). -/
def tableRead (t : ProgAddr) (m : DataAddr) (s : State) : State :=
  let w := progRead t s
  { memWrite m (w.extractLsb' 0 8) s with tblh := w.extractLsb' 8 6 }

/-- `TABRDC [m]` (R310): the page of the incremented `pc` (10_state R35, D3). -/
def execTabrdcM (m : DataAddr) (s : State) : Host.Outcome State Fault Refusal :=
  .next (tableRead (s.pc.extractLsb' 8 2 ++ s.tblp) m s)

/-- `TABRDL [m]` (R311): the last page, 300H + TBLP. -/
def execTabrdlM (m : DataAddr) (s : State) : Host.Outcome State Fault Refusal :=
  .next (tableRead (0b11#2 ++ s.tblp) m s)

end Sys2Proof.Machine
end

