-- ==== Sys2Proof/Machine/Environment.lean ====
section
/-!
DEFINITION. The environment's steps (60_exceptions R441 to R443, R450, R451, R454; 70_reset R503): pad changes with their detector
effects, ticks of the WDT RC oscillator, power-on.
-/

namespace Sys2Proof.Machine

/-- `v` with bit `i` at `b`. -/
def setBitTo {w : Nat} (v : BitVec w) (i : Nat) (b : Bool) : BitVec w :=
  if b then v ||| (1#w <<< i) else v &&& ~~~(1#w <<< i)

/-- The interrupt wake-up (R443): a request flag that was 0 in `s` and is 1 in `t` ends HALT. -/
def wakeOnRequest (s t : State) : State :=
  if s.halted && ((t.eif && !s.eif) || (t.tf && !s.tf)) then { t with halted := false } else t

/-- A level at the INT pad (R451): 1 to 0 sets EIF. While RES is low the detector only follows the level (log 10). -/
def setIntPad (level : Bool) (s : State) : State :=
  if s.resPad && s.intPad && !level then wakeOnRequest s { s with intPad := level, eif := true }
  else { s with intPad := level }

/-- A level at the TMR pad (R425, R426). -/
def setTmrPad (level : Bool) (s : State) : State :=
  if s.resPad && s.tmrPad != level then wakeOnRequest s (timerEdge level { s with tmrPad := level })
  else { s with tmrPad := level }

/-- A level at the RES pad (70_reset R503): going low resets at once. -/
def setResPad (level : Bool) (s : State) : State :=
  if s.resPad && !level then applyReset (if s.halted then .resHalt else .resNormal) { s with resPad := level }
  else { s with resPad := level }

/-- A level at line `i` of port A, if it is an input (R450, log 9): 1 to 0 in HALT mode wakes the chip where OPi = 1 (R442). -/
def setPaPad (i : Fin 8) (level : Bool) (s : State) : State :=
  if s.pac.getLsbD i then
    { s with
      paPads := setBitTo s.paPads i level
      halted := s.halted && !(s.paPads.getLsbD i && !level && s.option.getLsbD i) }
  else s

/-- A level at line `i` of port B, if it is an input (R450). -/
def setPbPad (i : Fin 8) (level : Bool) (s : State) : State :=
  if s.pbc.getLsbD i then { s with pbPads := setBitTo s.pbPads i level } else s

/-- A level at line `i` of port C, if it is an input (R450). -/
def setPcPad (i : Fin 2) (level : Bool) (s : State) : State :=
  if s.pcc.getLsbD i then { s with pcPads := setBitTo s.pcPads i level } else s

/-- A pad takes a level. -/
def setPad (p : Pad) (level : Bool) (s : State) : State :=
  match p with
  | .int => setIntPad level s
  | .tmr => setTmrPad level s
  | .res => setResPad level s
  | .pa i => setPaPad i level s
  | .pb i => setPbPad i level s
  | .pc i => setPcPad i level s

/-- A tick of the WDT RC oscillator (R436): the WDT counts it when it is enabled on that clock and RES is high (70_reset R503). -/
def rcTick (s : State) : State := if wdtOnRc s && s.resPad then (wdtTick s).1 else s

/-- An environment step (R454); `cpu` is no move of the environment. -/
def envStep (e : Event) (s : State) : State :=
  match e with
  | .cpu => s
  | .pad p level => setPad p level s
  | .rcTick => rcTick s
  | .powerOn draw => applyReset (.powerOn draw) s

end Sys2Proof.Machine
end

