-- ==== Sys2Proof/Machine/Cpu.lean ====
section
/-!
DEFINITION. The CPU's step and the choice of the agent that moves (60_exceptions R410, R413, R454; 10_state R34).
-/

namespace Sys2Proof.Machine

/-- The word at `pc` (10_state R34). -/
def fetch (s : State) : ProgWord := progRead s.pc s

/-- `pc <- (a + 1) mod 1024` (10_state R34, R37). -/
def advance (s : State) : State := { s with pc := s.pc + 1 }

/-- Fetches and executes one instruction, then applies the ticks of its cycles (10_state R34, 60_exceptions R454). The
encoding is the parameter `enc` (00_scope R7, 30_encoding R141). -/
def runInstruction (enc : Enc) (s : State) : Host.Outcome State Fault Refusal :=
  match enc s.option (fetch s) with
  | .reserved w => .refused (.reservedWord w)
  | .instr i =>
    match exec i (advance s) with
    | .next t => .next (applyTicks (cycles i (advance s)) t)
    | .fault r => .fault r
    | .refused r => .refused r

/-- The CPU's step (60_exceptions R454): while halted or while RES is low it does nothing (R440, 70_reset R503); else a ready
interrupt is acknowledged, or one instruction runs. An option word with OP10 or OP11 set is refused (10_state R75). -/
def cpuStep (enc : Enc) (s : State) : Host.Outcome State Fault Refusal :=
  if optionWellFormed s.option then
    if s.halted || !s.resPad then .next s
    else
      match pendingInterrupt s with
      | some src => .next (applyTicks Config.intAckCycles (acknowledge src s))
      | none => runInstruction enc s
  else .refused (.reservedOption s.option)

/-- One step of the step relation (60_exceptions R454): the agent that `e` names moves. -/
def move (enc : Enc) (e : Event) (s : State) : Host.Outcome State Fault Refusal :=
  match e with
  | .cpu => cpuStep enc s
  | .pad p level => .next (envStep (.pad p level) s)
  | .rcTick => .next (envStep .rcTick s)
  | .powerOn draw => .next (envStep (.powerOn draw) s)

/-- The next move (60_exceptions R454): that at the head of `env`, and the CPU's when `env` is empty (log 8). -/
def nextMove (enc : Enc) (s : State) : Host.Outcome State Fault Refusal :=
  match s.env with
  | [] => cpuStep enc s
  | e :: rest => move enc e { s with env := rest }

end Sys2Proof.Machine
end

