-- ==== Sys2Proof/Machine/Step.lean ====
section
/-!
DEFINITION. The machine's step, and how the host places one instruction under it.
-/

namespace Sys2Proof.Machine

/-- One step: one move of the environment or of the CPU (60_exceptions R454), with the default value of ENC (30_encoding
R151, log 1). -/
def step (s : State) : Host.Outcome State Fault Refusal := nextMove decode s

/-- `s` with the word `w` of `nbits` bits stored where the next step fetches, and whatever would keep that step from
fetching put aside: a move of the environment, HALT mode, RES low, a ready interrupt, a set OP10 or OP11 (log 4, log 26). -/
def State.withFetchWord (s : State) (nbits w : Nat) : State :=
  { s with
    program := Memory.write s.program s.pc.toNat (BitVec.ofNat 14 (w % 2 ^ nbits))
    env := []
    halted := false
    resPad := true
    emi := s.emi && (pendingInterrupt s).isNone
    option := s.option &&& 0x33FF#14 }

end Sys2Proof.Machine
end

