-- ==== Sys2Proof/Machine/Run.lean ====
section
/-!
DEFINITION. Unending runs and fairness (60_exceptions R436, R454, R455).
-/

namespace Sys2Proof.Machine

/-- Which agent moves at each moment of a run: any interleaving of the steps of R454, without end. -/
abbrev Schedule := Nat → Event

/-- Where a run from `s` stands after its first `n` moves, or how it stopped. -/
def runUnder (enc : Enc) (sched : Schedule) : Nat → State → Host.Outcome State Fault Refusal
  | 0, s => .next s
  | n + 1, s =>
    match runUnder enc sched n s with
    | .next t => move enc (sched n) t
    | .fault r => .fault r
    | .refused r => .refused r

/-- The fairness of R454: the CPU's step is taken again and again, and ticks of the WDT RC oscillator keep occurring
(R436). -/
structure Fair (sched : Schedule) : Prop where
  /-- "a cpu step is eventually taken when enabled" -/
  cpu : ∀ n, ∃ k, n ≤ k ∧ sched k = .cpu
  /-- "RC ticks keep occurring" -/
  rcTick : ∀ n, ∃ k, n ≤ k ∧ sched k = .rcTick

end Sys2Proof.Machine
end

