-- ==== Sys2Proof/Safety.lean ====
section
/-!
DEFINITION. What counts as a good state of the machine.
-/

namespace Sys2Proof.Machine

/-- The invariant every run from reset keeps. -/
structure State.Inv (s : State) : Prop where
  /-- The stack has at most two levels (10_state R39). -/
  stackDepth : s.stack.length ≤ 2
  /-- RAM is canonical over 40H to 7FH (10_state R77). -/
  ram : ramWf s = true
  /-- PROGRAM is canonical over 000H to 3FFH (10_state R76). -/
  program : programWf s = true
  /-- A halted chip has PD = 1 and TO = 0 (10_state R50, 60_exceptions R441). -/
  haltFlags : s.halted = true → s.pd = true ∧ s.timedOut = false
  /-- A measurement runs only in pulse width mode with TON = 1 (60_exceptions R426). -/
  measuring : s.pwmRun = true → s.ton = true ∧ s.tm1 = true ∧ s.tm0 = true
  /-- The two marks of the preclear pair are never both set (48_misc R325, R326). -/
  marks : (s.cw1 && s.cw2) = false
  /-- While RES is low the chip is not halted (70_reset R503). -/
  resHeld : s.resPad = false → s.halted = false

/-- The option word is one the spec covers (10_state R75). -/
def State.configured (s : State) : Bool := optionWellFormed s.option

end Sys2Proof.Machine
end

