-- ==== Sys2Proof/Certificates/Slice0/Obligations.lean ====
section
/-!
DEFINITION. The statements for the provers. In a statement about `exec`, `s.pc` is already the address of the next instruction
(10_state R35). "Log n" is notes/assumptions/n.md.
-/

namespace Sys2Proof.Claims

open Sys2Proof.Machine

/-- The outcomes of a step. -/
abbrev Out := Host.Outcome State Fault Refusal

/-- `i` is the word `w` and takes `n` cycles in `s` (30_encoding R151, 70_reset R546). The word is that of the default ENC: PRESUMED,
log 1. -/
def Coded (i : Instr) (s : State) (w : ProgWord) (n : Nat) : Prop := encode i = w ∧ cycles i s = n

/-- One cycle, two when the destination is PCL (70_reset R546 note (1)). -/
def storeCycles (m : DataAddr) (s : State) : Nat := if target m s = .pcl then 2 else 1

/-- `r` and the four flags of `t` are those of `a + b + cin` (40_arithmetic R200). -/
def SumIs (a b : Byte) (cin : Bool) (r : Byte) (t : State) : Prop :=
  r.toNat = (a.toNat + b.toNat + cin.toNat) % 256 ∧
  (t.c = true ↔ 256 ≤ a.toNat + b.toNat + cin.toNat) ∧
  (t.ac = true ↔ 16 ≤ a.toNat % 16 + b.toNat % 16 + cin.toNat) ∧
  (t.ov = true ↔ ¬(128 ≤ a.toNat % 128 + b.toNat % 128 + cin.toNat ↔ 256 ≤ a.toNat + b.toNat + cin.toNat)) ∧
  (t.z = true ↔ r = 0)

/-- `r` and the four flags of `t` are those of `a - b - borrow`: C and AC say that no borrow takes place (10_state R46, R47), OV
that the borrows into and out of bit 7 differ (R51). -/
def DifferenceIs (a b : Byte) (borrow : Nat) (r : Byte) (t : State) : Prop :=
  r.toNat = (a.toNat + 256 - b.toNat - borrow) % 256 ∧
  (t.c = true ↔ b.toNat + borrow ≤ a.toNat) ∧
  (t.ac = true ↔ b.toNat % 16 + borrow ≤ a.toNat % 16) ∧
  (t.ov = true ↔ ¬(b.toNat % 128 + borrow ≤ a.toNat % 128 ↔ b.toNat + borrow ≤ a.toNat)) ∧
  (t.z = true ↔ r = 0)

/-- The borrow into a subtraction with carry: the complement of C (40_arithmetic R209). -/
def borrowOf (s : State) : Nat := if s.c then 0 else 1

/-- `t` is `s` but for ACC and the four arithmetic flags. -/
def OnlyAccAndFlags (s t : State) : Prop :=
  t = { s with acc := t.acc, c := t.c, ac := t.ac, z := t.z, ov := t.ov }

/-- `t` is `s` after the write of `r` to `[m]`, but for the four arithmetic flags. -/
def OnlyStoreAndFlags (m : DataAddr) (r : Byte) (s t : State) : Prop :=
  t = { memWrite m r s with c := t.c, ac := t.ac, z := t.z, ov := t.ov }

/-- RAM in `t`: the byte `[m]` reaches holds `r`, every other byte is as in `s`. -/
def RamStored (m : DataAddr) (r : Byte) (s t : State) : Prop :=
  ∀ a, (target m s = .ram a → ramAt t a = r) ∧ (target m s ≠ .ram a → ramAt t a = ramAt s a)

def SumToAcc (o : Out) (s : State) (b : Byte) (cin : Bool) : Prop :=
  ∃ t, o = .next t ∧ SumIs s.acc b cin t.acc t ∧ OnlyAccAndFlags s t

def DifferenceToAcc (o : Out) (s : State) (b : Byte) (borrow : Nat) : Prop :=
  ∃ t, o = .next t ∧ DifferenceIs s.acc b borrow t.acc t ∧ OnlyAccAndFlags s t

def SumToMem (o : Out) (m : DataAddr) (s : State) (b : Byte) (cin : Bool) : Prop :=
  ∃ t r, o = .next t ∧ SumIs s.acc b cin r t ∧ OnlyStoreAndFlags m r s t ∧ RamStored m r s t

def DifferenceToMem (o : Out) (m : DataAddr) (s : State) (b : Byte) (borrow : Nat) : Prop :=
  ∃ t r, o = .next t ∧ DifferenceIs s.acc b borrow r t ∧ OnlyStoreAndFlags m r s t ∧ RamStored m r s t

/-- The result of `f`, bit by bit, to ACC, with Z (41_logic R220). -/
def BitsToAcc (o : Out) (s : State) (f : Nat → Bool) : Prop :=
  ∃ t, o = .next t ∧ (∀ k < 8, t.acc.getLsbD k = f k) ∧ (t.z = true ↔ t.acc = 0) ∧
    t = { s with acc := t.acc, z := t.z }

/-- The result of `f`, bit by bit, to `[m]`, with Z (41_logic R220). -/
def BitsToMem (o : Out) (m : DataAddr) (s : State) (f : Nat → Bool) : Prop :=
  ∃ t r, o = .next t ∧ (∀ k < 8, r.getLsbD k = f k) ∧ (t.z = true ↔ r = 0) ∧
    t = { memWrite m r s with z := t.z } ∧ RamStored m r s t

/-- A number modulo 256 to ACC, with Z (42_incdec R240). -/
def CountToAcc (o : Out) (s : State) (n : Nat) : Prop :=
  ∃ t, o = .next t ∧ t.acc.toNat = n % 256 ∧ (t.z = true ↔ n % 256 = 0) ∧ t = { s with acc := t.acc, z := t.z }

/-- A number modulo 256 to `[m]`, with Z (42_incdec R240). -/
def CountToMem (o : Out) (m : DataAddr) (s : State) (n : Nat) : Prop :=
  ∃ t r, o = .next t ∧ r.toNat = n % 256 ∧ (t.z = true ↔ n % 256 = 0) ∧
    t = { memWrite m r s with z := t.z } ∧ RamStored m r s t

/-- A byte given bit by bit to ACC, with C (43_rotate R250). -/
def RotateToAcc (o : Out) (s : State) (f : Nat → Bool) (c : Bool) : Prop :=
  ∃ t, o = .next t ∧ (∀ k < 8, t.acc.getLsbD k = f k) ∧ t = { s with acc := t.acc, c := c }

/-- A byte given bit by bit to `[m]`, with no flag. -/
def BytePut (o : Out) (m : DataAddr) (s : State) (f : Nat → Bool) : Prop :=
  ∃ t r, o = .next t ∧ (∀ k < 8, r.getLsbD k = f k) ∧ t = memWrite m r s ∧ RamStored m r s t

/-- A byte given bit by bit to `[m]`, with C (43_rotate R250). -/
def RotateMemC (o : Out) (m : DataAddr) (s : State) (f : Nat → Bool) (c : Bool) : Prop :=
  ∃ t r, o = .next t ∧ (∀ k < 8, r.getLsbD k = f k) ∧ t = { memWrite m r s with c := c } ∧ RamStored m r s t

/-- `n` executions of `RLC [m]`. -/
def rlcTimes (m : DataAddr) : Nat → State → Out
  | 0, s => .next s
  | n + 1, s =>
    match exec (.rlcM m) s with
    | .next t => rlcTimes m n t
    | .fault r => .fault r
    | .refused r => .refused r

/-- Two BCD digits of a number below 100. -/
def bcd (n : Nat) : Byte := BitVec.ofNat 8 (n / 10 * 16 + n % 10)

/-- The next move is the CPU's and nothing holds the CPU: it is not halted, RES is high, the option word is one the spec covers. -/
def Running (s : State) : Prop :=
  s.env = [] ∧ s.halted = false ∧ s.resPad = true ∧ optionWellFormed s.option = true

/-- The reserved words (30_encoding R153). -/
def inGap (w : Nat) : Prop :=
  (0x0006 ≤ w ∧ w ≤ 0x007F) ∨ (0x0780 ≤ w ∧ w ≤ 0x08FF) ∨ (0x1C00 ≤ w ∧ w ≤ 0x1CFF) ∨ (0x1E00 ≤ w ∧ w ≤ 0x1E7F) ∨
    (0x2400 ≤ w ∧ w ≤ 0x27FF) ∨ (0x2C00 ≤ w ∧ w ≤ 0x2FFF)

/-- The number of a bit. -/
def bit (b : Bool) : Nat := b.toNat

/-- An instruction with STATUS as destination that also writes flags: it completes in one cycle, and nothing but C, AC, Z, OV and
the free-value counter changes. -/
def StatusDoubleWrite (i : Instr) (s : State) : Prop :=
  cycles i s = 1 ∧
    ∃ t, exec i s = .next t ∧ t = { s with c := t.c, ac := t.ac, z := t.z, ov := t.ov, freeCtr := s.freeCtr + 1 }

/-- Under the encoding `enc` the step `st` of a running CPU with no ready interrupt is `exec` of the instruction at `pc`, in the state
whose `pc` is one further, then the ticks of its cycles. -/
def RunsDecoded (enc : Enc) (st : State → Out) : Prop :=
  ∀ (s : State) (i : Instr), Running s → pendingInterrupt s = none → enc s.option (progRead s.pc s) = .instr i →
    (∀ t, exec i { s with pc := s.pc + 1 } = .next t →
      st s = .next (applyTicks (cycles i { s with pc := s.pc + 1 }) t)) ∧
    (∀ r, exec i { s with pc := s.pc + 1 } = .fault r → st s = .fault r)

end Sys2Proof.Claims

open Sys2Proof Sys2Proof.Machine Sys2Proof.Claims

/-! ## Encoding -/

/-- Tier 3. Decoding the word of an instruction gives the instruction, for every operand (30_encoding R151, R152, R156). -/
def Obligations.DecodeEncodeAgree : Prop :=
  ∀ (opt : BitVec 14) (i : Instr), i.wellFormed opt = true → decode opt (encode i) = .instr i

/-- Each word has one meaning: what decodes to an instruction is that instruction's word, and the instruction is well formed. -/
def Obligations.DecodedWordsReencode : Prop :=
  ∀ (opt : BitVec 14) (w : ProgWord) (i : Instr), decode opt w = .instr i → encode i = w ∧ i.wellFormed opt = true

/-- R153: the reserved words are exactly the six ranges, and the CPU step that fetches one is refused. -/
def Obligations.ReservedWordsRefused : Prop :=
  (∀ (opt : BitVec 14) (w : ProgWord), decode opt w = .reserved w ↔ inGap w.toNat) ∧
  ∀ s : State, Running s → pendingInterrupt s = none → inGap (fetch s).toNat →
    step s = .refused (.reservedWord (fetch s))

/-- R156: with OP9 = 1 the word 0001H decodes to `CLR WDT`, with OP9 = 0 to `CLR WDT1`, and no other word depends on the option. -/
def Obligations.WdtWordFollowsOption : Prop :=
  (∀ opt : BitVec 14, decode opt 0x0001 = .instr (if opt.getLsbD 9 then .clrWdt else .clrWdt1)) ∧
  ∀ (opt opt' : BitVec 14) (w : ProgWord), w ≠ 0x0001 → decode opt w = decode opt' w

/-- Words of 95_test_vectors section 13 and of the encoding clauses, two or more of every operand format (R142), decode as the
spec says. -/
def Obligations.SampleWordsDecode : Prop :=
  ∀ opt : BitVec 14,
    decode opt 0x0000 = .instr .nop ∧ decode opt 0x0005 = .instr .clrWdt2 ∧
    decode opt 0x0340 = .instr (.addAM 0x40) ∧ decode opt 0x0080 = .instr (.movMA 0x00) ∧
    decode opt 0x0900 = .instr (.retAX 0x00) ∧ decode opt 0x0FFF = .instr (.movAX 0xFF) ∧
    decode opt 0x1E80 = .instr (.daaM 0x00) ∧ decode opt 0x23FF = .instr (.call 0x3FF) ∧
    decode opt 0x2923 = .instr (.jmp 0x123) ∧ decode opt 0x33FF = .instr (.setMI 0x7F 7) ∧
    decode opt 0x37FF = .instr (.clrMI 0x7F 7) ∧ decode opt 0x3DC0 = .instr (.szMI 0x40 3) ∧
    decode opt 0x1D86 = .instr (.tabrdlM 0x06) ∧ decode opt 0x1940 = .instr (.rraM 0x40)

/-! ## Data memory -/

/-- The value a read returns at every address but the three port data registers (20_memory R110; the ports:
PortReadTakesPadOrLatch). -/
def Obligations.DataReadMap : Prop :=
  ∀ (m : DataAddr) (s : State),
    (resolve m s = none → memRead m s = 0) ∧
    ∀ a, resolve m s = some a →
      (a.toNat = 0x01 → (memRead m s).toNat = 128 + s.mp.toNat) ∧
      (a.toNat = 0x05 → memRead m s = s.acc) ∧
      (a.toNat = 0x06 → (memRead m s).toNat = s.pc.toNat % 256) ∧
      (a.toNat = 0x07 → memRead m s = s.tblp) ∧
      (a.toNat = 0x08 → (memRead m s).toNat = s.tblh.toNat) ∧
      (a.toNat = 0x09 → memRead m s = s.wdts) ∧
      (a.toNat = 0x0A → (memRead m s).toNat =
        32 * bit s.timedOut + 16 * bit s.pd + 8 * bit s.ov + 4 * bit s.z + 2 * bit s.ac + bit s.c) ∧
      (a.toNat = 0x0B → (memRead m s).toNat =
        32 * bit s.tf + 16 * bit s.eif + 4 * bit s.eti + 2 * bit s.eei + bit s.emi) ∧
      (a.toNat = 0x0D → memRead m s = s.tmrCnt) ∧
      (a.toNat = 0x0E → (memRead m s).toNat = 128 * bit s.tm1 + 64 * bit s.tm0 + 16 * bit s.ton + 8 * bit s.te) ∧
      (a.toNat = 0x13 → memRead m s = s.pac) ∧
      (a.toNat = 0x15 → memRead m s = s.pbc) ∧
      (a.toNat = 0x17 → (memRead m s).toNat = s.pcc.toNat) ∧
      (a.toNat ∈ [0x02, 0x03, 0x04, 0x0C, 0x0F, 0x10, 0x11] ∨ 0x18 ≤ a.toNat ∧ a.toNat ≤ 0x3F → memRead m s = 0) ∧
      (0x40 ≤ a.toNat → memRead m s = ramAt s a)

/-- The effect of a write at every address, and that nothing else changes (20_memory R111, 10_state R52, R55, R60, R62, R63). -/
def Obligations.DataWriteMap : Prop :=
  ∀ (m : DataAddr) (v : Byte) (s : State),
    (resolve m s = none → memWrite m v s = s) ∧
    ∀ a, resolve m s = some a →
      (a.toNat = 0x01 → ∃ x, x.toNat = v.toNat % 128 ∧ memWrite m v s = { s with mp := x }) ∧
      (a.toNat = 0x05 → memWrite m v s = { s with acc := v }) ∧
      (a.toNat = 0x06 → ∃ x, x.toNat = s.pc.toNat / 256 * 256 + v.toNat ∧ memWrite m v s = { s with pc := x }) ∧
      (a.toNat = 0x07 → memWrite m v s = { s with tblp := v }) ∧
      (a.toNat = 0x08 → memWrite m v s = s) ∧
      (a.toNat = 0x09 → memWrite m v s = { s with wdts := v }) ∧
      (a.toNat = 0x0A → memWrite m v s =
        { s with ov := v.getLsbD 3, z := v.getLsbD 2, ac := v.getLsbD 1, c := v.getLsbD 0 }) ∧
      (a.toNat = 0x0B → memWrite m v s =
        { s with tf := v.getLsbD 5, eif := v.getLsbD 4, eti := v.getLsbD 2, eei := v.getLsbD 1, emi := v.getLsbD 0 }) ∧
      (a.toNat = 0x0D → s.ton = true → memWrite m v s = { s with tmrPre := v }) ∧
      (a.toNat = 0x0D → s.ton = false → memWrite m v s = { s with tmrPre := v, tmrCnt := v }) ∧
      (a.toNat = 0x0E → ∃ run,
        (run = true ↔ s.pwmRun = true ∧ v.getLsbD 7 = true ∧ v.getLsbD 6 = true ∧ v.getLsbD 4 = true) ∧
        memWrite m v s =
          { s with tm1 := v.getLsbD 7, tm0 := v.getLsbD 6, ton := v.getLsbD 4, te := v.getLsbD 3, pwmRun := run }) ∧
      (a.toNat = 0x12 → memWrite m v s = { s with pa := v }) ∧
      (a.toNat = 0x13 → memWrite m v s = { s with pac := v }) ∧
      (a.toNat = 0x14 → memWrite m v s = { s with pb := v }) ∧
      (a.toNat = 0x15 → memWrite m v s = { s with pbc := v }) ∧
      (a.toNat = 0x16 → ∃ x, x.toNat = v.toNat % 4 ∧ memWrite m v s = { s with portc := x }) ∧
      (a.toNat = 0x17 → ∃ x, x.toNat = v.toNat % 4 ∧ memWrite m v s = { s with pcc := x }) ∧
      (a.toNat ∈ [0x02, 0x03, 0x04, 0x0C, 0x0F, 0x10, 0x11] ∨ 0x18 ≤ a.toNat ∧ a.toNat ≤ 0x3F → memWrite m v s = s) ∧
      (0x40 ≤ a.toNat → ramAt (memWrite m v s) a = v ∧ (∀ b, b ≠ a → ramAt (memWrite m v s) b = ramAt s b) ∧
        memWrite m v s = { s with ram := (memWrite m v s).ram })

/-- R108: an access of 00H goes to the address in MP; with MP = 00H a read gives 00H and a write does nothing; MP is not
modified by a read, and by a write only when it points at 01H. -/
def Obligations.IndirectAccessGoesThroughMp : Prop :=
  ∀ (v : Byte) (s : State),
    (s.mp = 0 → memRead 0 s = 0 ∧ memWrite 0 v s = s) ∧
    (s.mp ≠ 0 → memRead 0 s = memRead s.mp s ∧ memWrite 0 v s = memWrite s.mp v s) ∧
    (s.mp ≠ 0x01 → (memWrite 0 v s).mp = s.mp)

/-- A byte written to RAM, directly or through MP, is what the same access then reads, and a second write of the old
byte restores every byte of RAM. -/
def Obligations.RamReadAfterWrite : Prop :=
  ∀ (m : DataAddr) (v : Byte) (s : State) (a : DataAddr), target m s = .ram a →
    memRead m (memWrite m v s) = v ∧
    (∀ b, ramAt (memWrite m (ramAt s a) (memWrite m v s)) b = ramAt s b) ∧
    (∀ n, 0x40 ≤ n.toNat → n ≠ a → memRead n (memWrite m v s) = memRead n s)

/-- R112: a port read, direct or through MP, takes the pad where the control bit is 1 and the latch where it is 0; port C reads
0 above bit 1. -/
def Obligations.PortReadTakesPadOrLatch : Prop :=
  ∀ (m a : DataAddr) (s : State), resolve m s = some a → ∀ k < 8,
    (a.toNat = 0x12 → (memRead m s).getLsbD k = if s.pac.getLsbD k then s.paPads.getLsbD k else s.pa.getLsbD k) ∧
    (a.toNat = 0x14 → (memRead m s).getLsbD k = if s.pbc.getLsbD k then s.pbPads.getLsbD k else s.pb.getLsbD k) ∧
    (a.toNat = 0x16 → (memRead m s).getLsbD k =
      if 2 ≤ k then false else if s.pcc.getLsbD k then s.pcPads.getLsbD k else s.portc.getLsbD k)

/-! ## Arithmetic -/

/-- R201, R203, R204: sum, flags, cycles, word, and that nothing else changes. -/
def Obligations.AddToAccumulator : Prop :=
  ∀ (m : DataAddr) (x : Byte) (s : State),
    SumToAcc (exec (.addAM m) s) s (memRead m s) false ∧ Coded (.addAM m) s (0x0300 ||| m.setWidth 14) 1 ∧
    SumToAcc (exec (.addAX x) s) s x false ∧ Coded (.addAX x) s (0x0B00 ||| x.setWidth 14) 1 ∧
    SumToAcc (exec (.adcAM m) s) s (memRead m s) s.c ∧ Coded (.adcAM m) s (0x1300 ||| m.setWidth 14) 1

/-- R206, R207, R209: difference, flags, cycles, word, and that nothing else changes. -/
def Obligations.SubtractFromAccumulator : Prop :=
  ∀ (m : DataAddr) (x : Byte) (s : State),
    DifferenceToAcc (exec (.subAM m) s) s (memRead m s) 0 ∧ Coded (.subAM m) s (0x0200 ||| m.setWidth 14) 1 ∧
    DifferenceToAcc (exec (.subAX x) s) s x 0 ∧ Coded (.subAX x) s (0x0A00 ||| x.setWidth 14) 1 ∧
    DifferenceToAcc (exec (.sbcAM m) s) s (memRead m s) (borrowOf s) ∧
    Coded (.sbcAM m) s (0x1200 ||| m.setWidth 14) 1

/-- R202, R205, where the destination is not STATUS (that form: StatusDoubleWriteIsOpen). -/
def Obligations.AddToMemory : Prop :=
  ∀ (m : DataAddr) (s : State), target m s ≠ .status →
    SumToMem (exec (.addmAM m) s) m s (memRead m s) false ∧
    Coded (.addmAM m) s (0x0380 ||| m.setWidth 14) (storeCycles m s) ∧
    SumToMem (exec (.adcmAM m) s) m s (memRead m s) s.c ∧
    Coded (.adcmAM m) s (0x1380 ||| m.setWidth 14) (storeCycles m s)

/-- R208, R210, where the destination is not STATUS: ACC minus the byte, not the byte minus ACC. -/
def Obligations.SubtractToMemory : Prop :=
  ∀ (m : DataAddr) (s : State), target m s ≠ .status →
    DifferenceToMem (exec (.submAM m) s) m s (memRead m s) 0 ∧
    Coded (.submAM m) s (0x0280 ||| m.setWidth 14) (storeCycles m s) ∧
    DifferenceToMem (exec (.sbcmAM m) s) m s (memRead m s) (borrowOf s) ∧
    Coded (.sbcmAM m) s (0x1280 ||| m.setWidth 14) (storeCycles m s)

/-- The identities of 40_arithmetic R213: after `SUB A,[m]` C is "not below", Z is "equal", OV xor bit 7 of the result is
signed "less than"; `SBC` with C = 1 is `SUB`, `ADC` with C = 0 is `ADD`. -/
def Obligations.SubtractionComparesOperands : Prop :=
  ∀ (m : DataAddr) (s : State),
    (∃ t, exec (.subAM m) s = .next t ∧
      (t.c = true ↔ (memRead m s).toNat ≤ s.acc.toNat) ∧ (t.z = true ↔ s.acc = memRead m s) ∧
      ((t.ov ^^ t.acc.getLsbD 7) = true ↔ s.acc.toInt < (memRead m s).toInt)) ∧
    (s.c = true → exec (.sbcAM m) s = exec (.subAM m) s) ∧
    (s.c = false → exec (.adcAM m) s = exec (.addAM m) s)

/-- R211, where the destination is not STATUS: the corrected formula, the parameter DAA_DISPUTED on the disputed inputs (the model
claims nothing of its value, log 16), and that ACC, AC, Z, OV are not changed. -/
def Obligations.DecimalAdjust : Prop :=
  ∀ (m : DataAddr) (s : State), target m s ≠ .status →
    ∃ t r, exec (.daaM m) s = .next t ∧ t = { memWrite m r s with c := t.c } ∧ RamStored m r s t ∧
      Coded (.daaM m) s (0x1E80 ||| m.setWidth 14) (storeCycles m s) ∧
      (9 < s.acc.toNat % 16 ∧ s.ac = true → (r, t.c) = Config.daaDisputed s.acc s.ac s.c) ∧
      (¬(9 < s.acc.toNat % 16 ∧ s.ac = true) →
        ∃ k, k = (if 9 < s.acc.toNat % 16 then 1 else 0) ∧
          r.toNat % 16 = (if 9 < s.acc.toNat % 16 ∨ s.ac = true then (s.acc.toNat % 16 + 6) % 16 else s.acc.toNat % 16) ∧
          r.toNat / 16 =
            (if 9 < s.acc.toNat / 16 + k ∨ s.c = true then (s.acc.toNat / 16 + 6 + k) % 16
             else (s.acc.toNat / 16 + k) % 16) ∧
          (t.c = true ↔ 9 < s.acc.toNat / 16 + k ∨ s.c = true))

/-- `ADC A,[m]` of two numbers below 100 in BCD and then `DAA` into RAM gives their decimal sum and its carry (R204, R211). -/
def Obligations.DecimalAdjustAfterAddIsBcd : Prop :=
  ∀ (m d : DataAddr) (x y : Nat) (s : State), x < 100 → y < 100 → 0x40 ≤ d.toNat →
    s.acc = bcd x → memRead m s = bcd y →
    ∃ t u, exec (.adcAM m) s = .next t ∧ exec (.daaM d) t = .next u ∧
      ramAt u d = bcd ((x + y + bit s.c) % 100) ∧ (u.c = true ↔ 100 ≤ x + y + bit s.c)

/-! ## Logic, increment and decrement, rotate -/

/-- R221 to R223, R227 to R229, R231: bit by bit to ACC, Z alone. -/
def Obligations.LogicToAccumulator : Prop :=
  ∀ (m : DataAddr) (x : Byte) (s : State),
    BitsToAcc (exec (.andAM m) s) s (fun k => s.acc.getLsbD k && (memRead m s).getLsbD k) ∧
    BitsToAcc (exec (.orAM m) s) s (fun k => s.acc.getLsbD k || (memRead m s).getLsbD k) ∧
    BitsToAcc (exec (.xorAM m) s) s (fun k => s.acc.getLsbD k ^^ (memRead m s).getLsbD k) ∧
    BitsToAcc (exec (.andAX x) s) s (fun k => s.acc.getLsbD k && x.getLsbD k) ∧
    BitsToAcc (exec (.orAX x) s) s (fun k => s.acc.getLsbD k || x.getLsbD k) ∧
    BitsToAcc (exec (.xorAX x) s) s (fun k => s.acc.getLsbD k ^^ x.getLsbD k) ∧
    BitsToAcc (exec (.cplaM m) s) s (fun k => !(memRead m s).getLsbD k) ∧
    Coded (.andAM m) s (0x0600 ||| m.setWidth 14) 1 ∧ Coded (.orAM m) s (0x0500 ||| m.setWidth 14) 1 ∧
    Coded (.xorAM m) s (0x0400 ||| m.setWidth 14) 1 ∧ Coded (.andAX x) s (0x0E00 ||| x.setWidth 14) 1 ∧
    Coded (.orAX x) s (0x0D00 ||| x.setWidth 14) 1 ∧ Coded (.xorAX x) s (0x0C00 ||| x.setWidth 14) 1 ∧
    Coded (.cplaM m) s (0x0100 ||| m.setWidth 14) 1

/-- R224 to R226, R230, where the destination is not STATUS: bit by bit to `[m]`, Z alone. -/
def Obligations.LogicToMemory : Prop :=
  ∀ (m : DataAddr) (s : State), target m s ≠ .status →
    BitsToMem (exec (.andmAM m) s) m s (fun k => s.acc.getLsbD k && (memRead m s).getLsbD k) ∧
    BitsToMem (exec (.ormAM m) s) m s (fun k => s.acc.getLsbD k || (memRead m s).getLsbD k) ∧
    BitsToMem (exec (.xormAM m) s) m s (fun k => s.acc.getLsbD k ^^ (memRead m s).getLsbD k) ∧
    BitsToMem (exec (.cplM m) s) m s (fun k => !(memRead m s).getLsbD k) ∧
    Coded (.andmAM m) s (0x0680 ||| m.setWidth 14) (storeCycles m s) ∧
    Coded (.ormAM m) s (0x0580 ||| m.setWidth 14) (storeCycles m s) ∧
    Coded (.xormAM m) s (0x0480 ||| m.setWidth 14) (storeCycles m s) ∧
    Coded (.cplM m) s (0x0180 ||| m.setWidth 14) (storeCycles m s)

/-- R241, R243 for every operand; R242, R244 where the destination is not STATUS: modulo 256, Z alone. -/
def Obligations.IncrementAndDecrement : Prop :=
  ∀ (m : DataAddr) (s : State),
    CountToAcc (exec (.incaM m) s) s ((memRead m s).toNat + 1) ∧ Coded (.incaM m) s (0x1400 ||| m.setWidth 14) 1 ∧
    CountToAcc (exec (.decaM m) s) s ((memRead m s).toNat + 255) ∧ Coded (.decaM m) s (0x1500 ||| m.setWidth 14) 1 ∧
    (target m s ≠ .status →
      CountToMem (exec (.incM m) s) m s ((memRead m s).toNat + 1) ∧
      CountToMem (exec (.decM m) s) m s ((memRead m s).toNat + 255)) ∧
    Coded (.incM m) s (0x1480 ||| m.setWidth 14) (storeCycles m s) ∧
    Coded (.decM m) s (0x1580 ||| m.setWidth 14) (storeCycles m s)

/-- R251, R253, R255, R257: every bit of the result, and C for the rotates through carry alone. -/
def Obligations.RotateToAccumulator : Prop :=
  ∀ (m : DataAddr) (s : State),
    RotateToAcc (exec (.rraM m) s) s (fun k => (memRead m s).getLsbD ((k + 1) % 8)) s.c ∧
    RotateToAcc (exec (.rlaM m) s) s (fun k => (memRead m s).getLsbD ((k + 7) % 8)) s.c ∧
    RotateToAcc (exec (.rrcaM m) s) s (fun k => if k = 7 then s.c else (memRead m s).getLsbD (k + 1))
      ((memRead m s).getLsbD 0) ∧
    RotateToAcc (exec (.rlcaM m) s) s (fun k => if k = 0 then s.c else (memRead m s).getLsbD (k - 1))
      ((memRead m s).getLsbD 7) ∧
    Coded (.rraM m) s (0x1900 ||| m.setWidth 14) 1 ∧ Coded (.rlaM m) s (0x1800 ||| m.setWidth 14) 1 ∧
    Coded (.rrcaM m) s (0x1B00 ||| m.setWidth 14) 1 ∧ Coded (.rlcaM m) s (0x1A00 ||| m.setWidth 14) 1

/-- R252, R256 for every destination; R254, R258 where the destination is not STATUS. -/
def Obligations.RotateMemory : Prop :=
  ∀ (m : DataAddr) (s : State),
    BytePut (exec (.rrM m) s) m s (fun k => (memRead m s).getLsbD ((k + 1) % 8)) ∧
    BytePut (exec (.rlM m) s) m s (fun k => (memRead m s).getLsbD ((k + 7) % 8)) ∧
    (target m s ≠ .status →
      RotateMemC (exec (.rrcM m) s) m s (fun k => if k = 7 then s.c else (memRead m s).getLsbD (k + 1))
        ((memRead m s).getLsbD 0) ∧
      RotateMemC (exec (.rlcM m) s) m s (fun k => if k = 0 then s.c else (memRead m s).getLsbD (k - 1))
        ((memRead m s).getLsbD 7)) ∧
    Coded (.rrM m) s (0x1980 ||| m.setWidth 14) (storeCycles m s) ∧
    Coded (.rlM m) s (0x1880 ||| m.setWidth 14) (storeCycles m s) ∧
    Coded (.rrcM m) s (0x1B80 ||| m.setWidth 14) (storeCycles m s) ∧
    Coded (.rlcM m) s (0x1A80 ||| m.setWidth 14) (storeCycles m s)

/-- Nine successive `RLC [m]` on a byte of RAM restore the byte, C and everything else (43_rotate R258). -/
def Obligations.NineRotatesThroughCarryRestore : Prop :=
  ∀ (m a : DataAddr) (s : State), target m s = .ram a →
    ∃ t, rlcTimes m 9 s = .next t ∧ t = { s with ram := t.ram } ∧ ∀ b, ramAt t b = ramAt s b

/-! ## Moves, bits, bytes -/

/-- R266 to R268: one byte is copied and no flag is written (but the flags that are the data of a write of STATUS). -/
def Obligations.MovesCopyOneByte : Prop :=
  ∀ (m : DataAddr) (x : Byte) (s : State),
    (∃ t, exec (.movAM m) s = .next t ∧ t.acc = memRead m s ∧ t = { s with acc := t.acc }) ∧
    (∃ t, exec (.movMA m) s = .next t ∧ t = memWrite m s.acc s ∧ RamStored m s.acc s t) ∧
    (∃ t, exec (.movAX x) s = .next t ∧ t.acc = x ∧ t = { s with acc := t.acc }) ∧
    Coded (.movAM m) s (0x0700 ||| m.setWidth 14) 1 ∧
    Coded (.movMA m) s (0x0080 ||| m.setWidth 14) (storeCycles m s) ∧
    Coded (.movAX x) s (0x0F00 ||| x.setWidth 14) 1

/-- R276, R277: bit i takes its value, the other seven are written back as read. -/
def Obligations.BitOperationsChangeOneBit : Prop :=
  ∀ (m : DataAddr) (i : BitVec 3) (s : State),
    BytePut (exec (.clrMI m i) s) m s (fun k => if k = i.toNat then false else (memRead m s).getLsbD k) ∧
    BytePut (exec (.setMI m i) s) m s (fun k => if k = i.toNat then true else (memRead m s).getLsbD k) ∧
    Coded (.clrMI m i) s (0x3400 ||| (i.setWidth 14 <<< 7) ||| m.setWidth 14) (storeCycles m s) ∧
    Coded (.setMI m i) s (0x3000 ||| (i.setWidth 14 <<< 7) ||| m.setWidth 14) (storeCycles m s)

/-- R322, R323, R327, R328: clear, set, and the nibbles interchanged, in memory or to ACC; no flag. -/
def Obligations.ClearSetSwapBytes : Prop :=
  ∀ (m : DataAddr) (s : State),
    BytePut (exec (.clrM m) s) m s (fun _ => false) ∧ BytePut (exec (.setM m) s) m s (fun _ => true) ∧
    BytePut (exec (.swapM m) s) m s (fun k => (memRead m s).getLsbD ((k + 4) % 8)) ∧
    (∃ t, exec (.swapaM m) s = .next t ∧ (∀ k < 8, t.acc.getLsbD k = (memRead m s).getLsbD ((k + 4) % 8)) ∧
      t = { s with acc := t.acc }) ∧
    Coded (.clrM m) s (0x1F00 ||| m.setWidth 14) (storeCycles m s) ∧
    Coded (.setM m) s (0x1F80 ||| m.setWidth 14) (storeCycles m s) ∧
    Coded (.swapM m) s (0x1180 ||| m.setWidth 14) (storeCycles m s) ∧
    Coded (.swapaM m) s (0x1100 ||| m.setWidth 14) 1

/-- THE MODEL'S CHOICE (DESIGN CHOICE, log 13), where R52 and U3 leave open which write of STATUS wins and R212 says that a model
refuses: the instruction completes in its one cycle, all of C, AC, Z, OV are open (no write is taken to win), TO, PD, ACC
and everything else are unchanged. -/
def Obligations.StatusDoubleWriteIsOpen : Prop :=
  ∀ (m : DataAddr) (s : State), target m s = .status →
    StatusDoubleWrite (.addmAM m) s ∧ StatusDoubleWrite (.adcmAM m) s ∧
    StatusDoubleWrite (.submAM m) s ∧ StatusDoubleWrite (.sbcmAM m) s ∧
    StatusDoubleWrite (.daaM m) s ∧
    StatusDoubleWrite (.andmAM m) s ∧ StatusDoubleWrite (.ormAM m) s ∧ StatusDoubleWrite (.xormAM m) s ∧
    StatusDoubleWrite (.cplM m) s ∧
    StatusDoubleWrite (.incM m) s ∧ StatusDoubleWrite (.decM m) s ∧
    StatusDoubleWrite (.rrcM m) s ∧ StatusDoubleWrite (.rlcM m) s

/-! ## Branches and the stack -/

/-- R287, R296: all ten bits of `pc` are loaded; `CALL` pushes the address of the next instruction. -/
def Obligations.JumpAndCall : Prop :=
  ∀ (addr : ProgAddr) (s : State),
    exec (.jmp addr) s = .next { s with pc := addr } ∧ Coded (.jmp addr) s (0x2800 ||| addr.setWidth 14) 2 ∧
    exec (.call addr) s = .next { push s.pc s with pc := addr } ∧
    Coded (.call addr) s (0x2000 ||| addr.setWidth 14) 2

/-- R40: below depth 2 the address goes on top; at depth 2 the first entry is lost and the depth stays 2; nothing else changes. -/
def Obligations.PushKeepsTwoAddresses : Prop :=
  ∀ (t : ProgAddr) (s : State),
    (s.stack.length < 2 → (push t s).stack = s.stack ++ [t]) ∧
    (∀ a b, s.stack = [a, b] → (push t s).stack = [b, t]) ∧
    push t s = { s with stack := (push t s).stack }

/-- R297, R298, R299, with an entry on the stack: `pc` is the last entry, which leaves the stack; `RETI` sets EMI, `RET A,x`
loads ACC. -/
def Obligations.ReturnsPopTheStack : Prop :=
  ∀ (x : Byte) (s : State) (rest : List ProgAddr) (a : ProgAddr), s.stack = rest ++ [a] →
    exec .ret s = .next { s with pc := a, stack := rest } ∧
    exec .reti s = .next { s with pc := a, stack := rest, emi := true } ∧
    exec (.retAX x) s = .next { s with pc := a, stack := rest, acc := x } ∧
    Coded .ret s 0x0003 2 ∧ Coded .reti s 0x0004 2 ∧ Coded (.retAX x) s (0x0900 ||| x.setWidth 14) 2

/-- R41: a return with the stack empty faults. That no other instruction ever faults or is refused is THE MODEL'S CHOICE where the
spec says that a model refuses: STATUS as destination with flags (R212, log 13) and the PCL load with a skip (R292,
log 14) complete. -/
def Obligations.OnlyEmptyReturnsStop : Prop :=
  ∀ (i : Instr) (s : State),
    ((i = .ret ∨ i = .reti ∨ ∃ x, i = .retAX x) ∧ s.stack = [] → exec i s = .fault .stackUnderflow) ∧
    (¬((i = .ret ∨ i = .reti ∨ ∃ x, i = .retAX x) ∧ s.stack = []) → ∃ t, exec i s = .next t)

/-- A `RET` after a `CALL` resumes after the `CALL` with everything as before, when a level was free (R296, R297). -/
def Obligations.CallThenReturnResumes : Prop :=
  ∀ (addr : ProgAddr) (s : State), s.stack.length < 2 →
    ∃ t, exec (.call addr) s = .next t ∧ t.pc = addr ∧ t.stack.length = s.stack.length + 1 ∧ exec .ret t = .next s

/-- R288 to R291: the skip is taken on the byte, or on the bit, and nothing but `pc` (and ACC for SZA) changes. -/
def Obligations.SkipTests : Prop :=
  ∀ (m : DataAddr) (i : BitVec 3) (s : State),
    (∀ v n, v = memRead m s → n = (if v.toNat = 0 then 1 else 0) →
      exec (.szM m) s = .next { s with pc := s.pc + BitVec.ofNat 10 n } ∧
      exec (.szaM m) s = .next { s with pc := s.pc + BitVec.ofNat 10 n, acc := v } ∧
      Coded (.szM m) s (0x1080 ||| m.setWidth 14) (1 + n) ∧ Coded (.szaM m) s (0x1000 ||| m.setWidth 14) (1 + n)) ∧
    (∀ n, n = (memRead m s).toNat / 2 ^ i.toNat % 2 →
      exec (.szMI m i) s = .next { s with pc := s.pc + BitVec.ofNat 10 (1 - n) } ∧
      exec (.snzMI m i) s = .next { s with pc := s.pc + BitVec.ofNat 10 n } ∧
      Coded (.szMI m i) s (0x3C00 ||| (i.setWidth 14 <<< 7) ||| m.setWidth 14) (1 + (1 - n)) ∧
      Coded (.snzMI m i) s (0x3800 ||| (i.setWidth 14 <<< 7) ||| m.setWidth 14) (1 + n))

/-- R294, R295: the count goes to ACC always, a zero result skips, no flag is written. -/
def Obligations.SkipOnCountToAccumulator : Prop :=
  ∀ (m : DataAddr) (s : State),
    (∃ t n, exec (.sizaM m) s = .next t ∧ t.acc.toNat = ((memRead m s).toNat + 1) % 256 ∧
      n = (if (memRead m s).toNat = 255 then 1 else 0) ∧
      t = { s with acc := t.acc, pc := s.pc + BitVec.ofNat 10 n } ∧
      Coded (.sizaM m) s (0x1600 ||| m.setWidth 14) (1 + n)) ∧
    (∃ t n, exec (.sdzaM m) s = .next t ∧ t.acc.toNat = ((memRead m s).toNat + 255) % 256 ∧
      n = (if (memRead m s).toNat = 1 then 1 else 0) ∧
      t = { s with acc := t.acc, pc := s.pc + BitVec.ofNat 10 n } ∧
      Coded (.sdzaM m) s (0x1700 ||| m.setWidth 14) (1 + n))

/-- R292, R293: the count goes to `[m]`, a zero result skips, no flag is written; PCL as destination with a zero result is the
open form (PclLoadWithSkipIsOpen). -/
def Obligations.SkipOnCountInMemory : Prop :=
  ∀ (m : DataAddr) (s : State),
    (¬(target m s = .pcl ∧ (memRead m s).toNat = 255) →
      ∃ t r n, exec (.sizM m) s = .next t ∧ r.toNat = ((memRead m s).toNat + 1) % 256 ∧
        n = (if (memRead m s).toNat = 255 then 1 else 0) ∧
        t = { memWrite m r s with pc := (memWrite m r s).pc + BitVec.ofNat 10 n } ∧ RamStored m r s t ∧
        Coded (.sizM m) s (0x1680 ||| m.setWidth 14) (storeCycles m s + n)) ∧
    (¬(target m s = .pcl ∧ (memRead m s).toNat = 1) →
      ∃ t r n, exec (.sdzM m) s = .next t ∧ r.toNat = ((memRead m s).toNat + 255) % 256 ∧
        n = (if (memRead m s).toNat = 1 then 1 else 0) ∧
        t = { memWrite m r s with pc := (memWrite m r s).pc + BitVec.ofNat 10 n } ∧ RamStored m r s t ∧
        Coded (.sdzM m) s (0x1780 ||| m.setWidth 14) (storeCycles m s + n))

/-- THE MODEL'S CHOICE (DESIGN CHOICE, log 14), where R292 and U6 give no order: `pc` is open, everything else is unchanged. -/
def Obligations.PclLoadWithSkipIsOpen : Prop :=
  ∀ (m : DataAddr) (s : State), target m s = .pcl →
    ((memRead m s).toNat = 255 →
      ∃ t, exec (.sizM m) s = .next t ∧ t = { s with pc := t.pc, freeCtr := s.freeCtr + 1 }) ∧
    ((memRead m s).toNat = 1 →
      ∃ t, exec (.sdzM m) s = .next t ∧ t = { s with pc := t.pc, freeCtr := s.freeCtr + 1 })

/-- R309 to R311: the low byte of the table word goes to `[m]`, the high six bits to TBLH; the current page is that of `pc`, the
last page is 300H to 3FFH. -/
def Obligations.TableReads : Prop :=
  ∀ (m : DataAddr) (s : State) (a : ProgAddr),
    (a.toNat = s.pc.toNat / 256 * 256 + s.tblp.toNat →
      ∃ t lo, exec (.tabrdcM m) s = .next t ∧ lo.toNat = (progRead a s).toNat % 256 ∧
        t.tblh.toNat = (progRead a s).toNat / 256 ∧ t = { memWrite m lo s with tblh := t.tblh } ∧ RamStored m lo s t) ∧
    (a.toNat = 0x300 + s.tblp.toNat →
      ∃ t lo, exec (.tabrdlM m) s = .next t ∧ lo.toNat = (progRead a s).toNat % 256 ∧
        t.tblh.toNat = (progRead a s).toNat / 256 ∧ t = { memWrite m lo s with tblh := t.tblh } ∧ RamStored m lo s t) ∧
    Coded (.tabrdcM m) s (0x1D00 ||| m.setWidth 14) (storeCycles m s + 1) ∧
    Coded (.tabrdlM m) s (0x1D80 ||| m.setWidth 14) (storeCycles m s + 1)

/-! ## NOP, watchdog instructions, HALT -/

/-- R321: `NOP` has no effect of its own; a step that runs it moves `pc` on and, where nothing counts cycles, changes nothing
else. -/
def Obligations.NopOnlyAdvances : Prop :=
  ∀ s : State, exec .nop s = .next s ∧ Coded .nop s 0x0000 1 ∧
    (Running s → pendingInterrupt s = none → fetch s = 0x0000 → clocked s = false →
      step s = .next { s with pc := s.pc + 1 })

/-- R324, R325, R326 under every option: the active type clears the WDT, TO and PD (the pair when it is complete), the other
does nothing, and with the WDT disabled all three do nothing. -/
def Obligations.ClearWatchdogByOption : Prop :=
  ∀ s : State,
    Coded .clrWdt s 0x0001 1 ∧ Coded .clrWdt1 s 0x0001 1 ∧ Coded .clrWdt2 s 0x0005 1 ∧
    (s.option.getLsbD 13 = true →
      exec .clrWdt s = .next s ∧ exec .clrWdt1 s = .next s ∧ exec .clrWdt2 s = .next s) ∧
    (s.option.getLsbD 13 = false → s.option.getLsbD 9 = true →
      exec .clrWdt s = .next { s with wdtCnt := 0, wdtPre := 0, timedOut := false, pd := false } ∧
      exec .clrWdt1 s = .next s ∧ exec .clrWdt2 s = .next s) ∧
    (s.option.getLsbD 13 = false → s.option.getLsbD 9 = false →
      exec .clrWdt s = .next s ∧
      (s.cw2 = true → exec .clrWdt1 s =
        .next { s with wdtCnt := 0, wdtPre := 0, timedOut := false, pd := false, cw1 := false, cw2 := false }) ∧
      (s.cw2 = false → exec .clrWdt1 s = .next { s with cw1 := true }) ∧
      (s.cw1 = true → exec .clrWdt2 s =
        .next { s with wdtCnt := 0, wdtPre := 0, timedOut := false, pd := false, cw1 := false, cw2 := false }) ∧
      (s.cw1 = false → exec .clrWdt2 s = .next { s with cw2 := true }))

/-- R329: `HALT` clears the WDT, sets PD, clears TO and halts; everything else is retained. -/
def Obligations.HaltEntersPowerDown : Prop :=
  ∀ s : State,
    exec .halt s = .next { s with wdtCnt := 0, wdtPre := 0, pd := true, timedOut := false, halted := true } ∧
    Coded .halt s 0x0002 1

/-! ## Interrupts -/

/-- R410, R412, R413: at a boundary a ready external interrupt is acknowledged, else a ready timer interrupt: `pc` is pushed and
goes to the vector, the request flag and EMI are cleared, nothing else changes but by the INT_ACK_CYCLES ticks that
follow. -/
def Obligations.InterruptsAcknowledged : Prop :=
  ∀ s : State, Running s → s.emi = true → s.stack.length < 2 →
    (s.eei = true → s.eif = true →
      step s = .next (applyTicks Config.intAckCycles
        { s with stack := s.stack ++ [s.pc], pc := 0x004, eif := false, emi := false })) ∧
    (¬(s.eei = true ∧ s.eif = true) → s.eti = true → s.tf = true →
      step s = .next (applyTicks Config.intAckCycles
        { s with stack := s.stack ++ [s.pc], pc := 0x008, tf := false, emi := false }))

/-- R42, R410: with EMI clear, with both sources masked or quiet, or with the stack full no interrupt is acknowledged: the
instruction at `pc` runs, and the requests stay recorded for it. -/
def Obligations.MaskOrFullStackHoldsInterrupts : Prop :=
  ∀ s : State, Running s →
    (s.emi = false ∨ 2 ≤ s.stack.length ∨
      ¬(s.eei = true ∧ s.eif = true) ∧ ¬(s.eti = true ∧ s.tf = true)) →
    step s = runInstruction decode s

/-! ## Timer/event Counter -/

/-- R423: below FFH a tick counts up; the tick that finds FFH reloads the preload and sets TF. So the overflow is the
(256 - count)th tick. -/
def Obligations.TimerOverflowPeriod : Prop :=
  ∀ s : State,
    (∀ k, k < 256 - s.tmrCnt.toNat →
      timerTick^[k] s = { s with tmrCnt := BitVec.ofNat 8 (s.tmrCnt.toNat + k) }) ∧
    timerTick^[256 - s.tmrCnt.toNat] s = { s with tmrCnt := s.tmrPre, tf := true }

/-- R421, R424, R425, R426, R429. Cycles, with the WDT not counting them: `n` cycles are `n` ticks in timer mode with TON = 1 and in
a running measurement, none with TON = 0, in event count mode and in a measurement not begun. Which code is which mode is
D13 (DEDUCED, log 27). The state may be halted: it is then the one HALT leaves, whose cycle counts like any other, while the WDT
does not count it and an overflow in it does not wake (DEDUCED, log 18). In the unused mode 00 with TON = 1, on cycles and on
changes of the TMR pad, the count and TF are open and nothing else changes: THE MODEL'S CHOICE (DESIGN CHOICE, log 15). A change of
the TMR pad is nothing to the timer in timer mode and, outside pulse width mode, with TON = 0. -/
def Obligations.TimerCountsItsClock : Prop :=
  (∀ (n : Nat) (s : State), wdtOnInstrClock s = false ∨ s.halted = true →
    (s.tm1 = true → s.tm0 = false → s.ton = true → applyTicks n s = timerTick^[n] s) ∧
    (s.tm1 = true → s.tm0 = true → s.pwmRun = true → applyTicks n s = timerTick^[n] s) ∧
    (s.tm1 = true → s.tm0 = true → s.pwmRun = false → applyTicks n s = s) ∧
    (s.tm1 = false → s.tm0 = true → applyTicks n s = s) ∧
    (s.ton = false → s.pwmRun = false → applyTicks n s = s) ∧
    (s.tm1 = false → s.tm0 = false → s.ton = true → ∃ t, applyTicks n s = t ∧
      t = { s with tmrCnt := t.tmrCnt, tf := t.tf, freeCtr := s.freeCtr + n } ∧ (s.tf = true → t.tf = true))) ∧
  ∀ (level : Bool) (s : State), s.resPad = true → s.tmrPad = !level →
    (s.tm1 = true ∧ s.tm0 = false ∨ s.tm1 = false ∧ s.ton = false →
      envStep (.pad .tmr level) s = { s with tmrPad := level }) ∧
    (s.tm1 = false → s.tm0 = false → s.ton = true → ∃ t, envStep (.pad .tmr level) s = t ∧
      t = { s with tmrPad := level, tmrCnt := t.tmrCnt, tf := t.tf, freeCtr := s.freeCtr + 1
                   halted := s.halted && (s.tf || !t.tf) } ∧
      (s.tf = true → t.tf = true))

/-- R425, R443: in event count mode with TON = 1 an active edge of the TMR pad is one tick, halted or not, the other edge is
none, and an overflow that takes TF from 0 to 1 ends HALT. That TM1 TM0 = 01 is event count mode is D13 (DEDUCED, log 27). -/
def Obligations.EventCountEdges : Prop :=
  ∀ (level : Bool) (s : State), s.resPad = true → s.tm1 = false → s.tm0 = true → s.ton = true → s.tmrPad = !level →
    (level = s.te → envStep (.pad .tmr level) s = { s with tmrPad := level }) ∧
    (level ≠ s.te → s.tmrCnt ≠ 0xFF →
      envStep (.pad .tmr level) s = { s with tmrPad := level, tmrCnt := s.tmrCnt + 1 }) ∧
    (level ≠ s.te → s.tmrCnt = 0xFF →
      envStep (.pad .tmr level) s =
        { s with tmrPad := level, tmrCnt := s.tmrPre, tf := true, halted := s.halted && s.tf })

/-- R426: in pulse width mode a start edge with TON = 1 begins the measurement, the opposite edge ends it and clears TON, any other
change of the pad does nothing. Which edge TE selects is D14 (DEDUCED, log 27). -/
def Obligations.PulseWidthMeasurement : Prop :=
  ∀ (level : Bool) (s : State), s.resPad = true → s.tm1 = true → s.tm0 = true → s.tmrPad = !level →
    (level = s.te → s.ton = true → s.pwmRun = false →
      envStep (.pad .tmr level) s = { s with tmrPad := level, pwmRun := true }) ∧
    (level ≠ s.te → s.pwmRun = true →
      envStep (.pad .tmr level) s = { s with tmrPad := level, pwmRun := false, ton := false }) ∧
    (¬(level = s.te ∧ s.ton = true ∧ s.pwmRun = false) → ¬(level ≠ s.te ∧ s.pwmRun = true) →
      envStep (.pad .tmr level) s = { s with tmrPad := level })

/-! ## Watchdog, reset, HALT mode, pads -/

/-- R431, R432: from a cleared WDT, tick n leaves the count n below 256 · ratio, and the tick 256 · ratio is the first time-out. -/
def Obligations.WatchdogTimeOutPeriod : Prop :=
  ∀ (s : State) (n : Nat), s.wdtCnt = 0 → s.wdtPre = 0 → n < 256 * 2 ^ (s.wdts.toNat % 8) →
    (fun u => (wdtTick u).1)^[n] s = { s with wdtCnt := BitVec.ofNat 8 n, wdtPre := BitVec.ofNat 7 (n / 256) } ∧
    ((wdtTick { s with wdtCnt := BitVec.ofNat 8 n, wdtPre := BitVec.ofNat 7 (n / 256) }).2 = true ↔
      n + 1 = 256 * 2 ^ (s.wdts.toNat % 8))

/-- R433, R434: a CPU that runs with the WDT on the instruction clock, timer off, is reset by the cycle that completes
256 · ratio cycles since the last clear, and keeps what the table marks unchanged. R436, R454: with the WDT on its RC
oscillator, under every encoding and every fair schedule without power-on and without a change of RES, a running program that
never clears the WDT (and so never halts) and does not stop is reset by a tick. -/
def Obligations.WatchdogResetsRunningCpu : Prop :=
  (∀ (s : State) (n k : Nat), wdtOnInstrClock s = true → s.halted = false → s.ton = false → s.pwmRun = false →
    s.wdtCnt.toNat + 256 * s.wdtPre.toNat = n → n < 256 * 2 ^ (s.wdts.toNat % 8) →
    (n + k < 256 * 2 ^ (s.wdts.toNat % 8) →
      applyTicks k s = { s with wdtCnt := BitVec.ofNat 8 (n + k), wdtPre := BitVec.ofNat 7 ((n + k) / 256) }) ∧
    (256 * 2 ^ (s.wdts.toNat % 8) ≤ n + k → applyTicks k s = applyReset .wdtNormal s)) ∧
  ∀ (enc : Enc) (sched : Schedule) (s : State), Fair sched → wdtOnRc s = true → s.halted = false → s.resPad = true →
    (∀ n, (∀ d, sched n ≠ .powerOn d) ∧ ∀ level, sched n ≠ .pad .res level) →
    (∀ n, ∃ t, runUnder enc sched n s = .next t ∧
      ∀ i, enc t.option (fetch t) = .instr i → i ∉ [.halt, .clrWdt, .clrWdt1, .clrWdt2]) →
    ∃ n t, runUnder enc sched n s = .next t ∧ sched n = .rcTick ∧
      runUnder enc sched (n + 1) s = .next (applyReset .wdtNormal t)

/-- R501, R90, R91: the state after each of the five resets, RES low, power-on and the WDT time-out as their causes. -/
def Obligations.ResetKinds : Prop :=
  ∀ (d : PowerOnDraw) (s c : State),
    c = { s with
          pc := 0, stack := [], emi := false, eei := false, eti := false, eif := false, tf := false
          tm1 := false, tm0 := false, ton := false, te := true, pwmRun := false, wdts := 0x07
          pa := 0xFF, pac := 0xFF, pb := 0xFF, pbc := 0xFF, portc := 0b11, pcc := 0b11
          wdtCnt := 0, wdtPre := 0, cw1 := false, cw2 := false, halted := false } →
    (s.resPad = true → s.halted = false → envStep (.pad .res false) s = { c with resPad := false }) ∧
    (s.resPad = true → s.halted = true →
      envStep (.pad .res false) s = { c with resPad := false, timedOut := false, pd := true }) ∧
    (s.halted = false → wdtTimeout s = { c with timedOut := true }) ∧
    (s.halted = true → wdtTimeout s =
      { s with pc := 0, stack := [], timedOut := true, halted := false, wdtCnt := 0, wdtPre := 0, cw1 := false,
               cw2 := false }) ∧
    (∃ ram, envStep (.powerOn d) s =
      { c with timedOut := false, pd := false, acc := d.acc, mp := d.mp, tblp := d.tblp, tblh := d.tblh
               tmrCnt := d.tmrCnt, tmrPre := d.tmrPre, ov := d.ov, z := d.z, ac := d.ac, c := d.c, ram := ram } ∧
      ∀ k, k < 64 → Memory.read ram (0x40 + k) = d.ram.getD k 0)

/-- What the reset table gives for power-on (10_state R90, R91), and nothing of the values log 2 to log 8 name. -/
def Obligations.PowerOnState : Prop :=
  State.reset.pc = 0 ∧ State.reset.stack = [] ∧ State.reset.timedOut = false ∧ State.reset.pd = false ∧
  memRead 0x0B State.reset = 0x00 ∧ memRead 0x0E State.reset = 0x08 ∧ memRead 0x09 State.reset = 0x07 ∧
  State.reset.pa = 0xFF ∧ memRead 0x13 State.reset = 0xFF ∧ State.reset.pb = 0xFF ∧ memRead 0x15 State.reset = 0xFF ∧
  State.reset.portc = 0b11 ∧ memRead 0x17 State.reset = 0x03 ∧ State.reset.wdtCnt = 0 ∧ State.reset.wdtPre = 0 ∧
  State.reset.cw1 = false ∧ State.reset.cw2 = false ∧ State.reset.halted = false ∧ State.reset.pwmRun = false

/-- While RES is low the CPU and the WDT do nothing and no pad but RES has a detector effect (70_reset R503); that the detectors only
follow the levels is the model's reading (DEDUCED, log 10), that the idle CPU answers its own state is log 19. -/
def Obligations.ResLowHoldsChip : Prop :=
  ∀ (s : State) (level : Bool), s.resPad = false →
    (optionWellFormed s.option = true → s.env = [] → step s = .next s) ∧
    envStep .rcTick s = s ∧ envStep (.pad .int level) s = { s with intPad := level } ∧
    envStep (.pad .tmr level) s = { s with tmrPad := level } ∧
    envStep (.pad .res level) s = { s with resPad := level }

/-- R451, R443: a change of INT from 1 to 0 sets EIF, and ends HALT when EIF was 0; a change from 0 to 1 does nothing. -/
def Obligations.IntEdgeRequestsAndWakes : Prop :=
  ∀ s : State, s.resPad = true →
    (s.intPad = true →
      envStep (.pad .int false) s = { s with intPad := false, eif := true, halted := s.halted && s.eif }) ∧
    (s.intPad = false → envStep (.pad .int true) s = { s with intPad := true })

/-- R442: a change of PAi from 1 to 0 ends HALT exactly where OPi = 1 and PAC[i] = 1, and no pad of a port sets a flag or
changes anything else but the line's level; a line configured as output does not move (R450). -/
def Obligations.PortAWakesFromHalt : Prop :=
  ∀ (i : Fin 8) (level : Bool) (s : State),
    (s.pac.getLsbD i = false → envStep (.pad (.pa i) level) s = s) ∧
    (s.pac.getLsbD i = true → ∃ t, t = envStep (.pad (.pa i) level) s ∧
      t = { s with paPads := t.paPads, halted := t.halted } ∧
      (∀ k < 8, t.paPads.getLsbD k = if k = i then level else s.paPads.getLsbD k) ∧
      (t.halted = true ↔
        s.halted = true ∧ ¬(s.paPads.getLsbD i = true ∧ level = false ∧ s.option.getLsbD i = true)))

/-- R440, R441: a halted CPU executes nothing, acknowledges nothing and counts nothing until the environment moves (the idle step
answers its own state: the model's form, log 19). R436, R454: with the WDT on its RC oscillator and RES high, under every
encoding and every fair schedule, the chip is eventually woken. -/
def Obligations.HaltedCpuWaits : Prop :=
  ∀ s : State, s.halted = true → optionWellFormed s.option = true →
    (s.env = [] → ∀ n, Host.Core.run Sys2Proof.core n s = .next s) ∧
    (∀ rest, s.env = .cpu :: rest → step s = .next { s with env := rest }) ∧
    (wdtOnRc s = true → s.resPad = true → ∀ (enc : Enc) (sched : Schedule), Fair sched →
      ∃ n t, runUnder enc sched n s = .next t ∧ t.halted = false)

/-! ## The whole machine -/

/-- A step runs the decoded instruction (10_state R34, 60_exceptions R454): with no interrupt pending it is `exec` of the instruction
at `pc`, in the state whose `pc` is one further (modulo 1024), then the ticks of its cycles; under the default ENC (log 1), and
under any other encoding in its place (30_encoding R141). That the ticks follow the instruction's effects is D15 (DEDUCED,
log 21); that the cycle of HALT gives the timer its tick and the WDT none, where R454 would apply one, is the model's reading of
90_conflicts C11 (DEDUCED, log 18). -/
def Obligations.StepRunsDecodedInstruction : Prop :=
  RunsDecoded decode step ∧ ∀ enc, RunsDecoded enc (nextMove enc)

/-- The environment's move at the head of `env` is the step (60_exceptions R454; that `env` lists the moves is the model's form, log 8). -/
def Obligations.EnvironmentMovesFirst : Prop :=
  ∀ (s : State) (e : Event) (rest : List Event), s.env = e :: rest → e ≠ .cpu →
    step s = .next (envStep e { s with env := rest }) ∧
    (wdtOnRc s = true → s.resPad = true → e = .rcTick → step s = .next (wdtTick { s with env := rest }).1) ∧
    (wdtOnRc s = false → e = .rcTick → step s = .next { s with env := rest })

/-- Tier 3. Every step keeps the invariant of Safety.lean, from every state that meets it. -/
def Obligations.StepKeepsInvariant : Prop :=
  ∀ s t : State, s.Inv → step s = .next t → t.Inv

/-- The reset state meets the invariant. -/
def Obligations.ResetMeetsInvariant : Prop := State.reset.Inv

/-- Of the instructions, only HALT and the clear-WDT instructions write TO, PD and the hidden watchdog and HALT state (10_state R50,
R70 to R72), only table reads write TBLH (R58), only calls and returns move the stack (R39 to R41), in every state. -/
def Obligations.HiddenStateHasNamedWriters : Prop :=
  ∀ (i : Instr) (s t : State), exec i s = .next t →
    (i ∉ [.halt, .clrWdt, .clrWdt1, .clrWdt2] →
      t.pd = s.pd ∧ t.timedOut = s.timedOut ∧ t.wdtCnt = s.wdtCnt ∧ t.wdtPre = s.wdtPre ∧ t.halted = s.halted ∧
        t.cw1 = s.cw1 ∧ t.cw2 = s.cw2) ∧
    ((∀ m, i ≠ .tabrdcM m ∧ i ≠ .tabrdlM m) → t.tblh = s.tblh) ∧
    ((∀ a x, i ≠ .call a ∧ i ≠ .retAX x) → i ≠ .ret → i ≠ .reti → t.stack = s.stack)

/-- No step writes program memory or the option word (20_memory R101, 10_state R75, R76), whoever moves. -/
def Obligations.ProgramMemoryNeverWritten : Prop :=
  ∀ s t : State, step s = .next t → t.program = s.program ∧ t.option = s.option
end

