-- ==== Sys2Proof/Laws/Memory.lean ====
section
/-!
SUPPORT. The memory's laws: a read after a write, and that every memory operation keeps the canonical form.
-/

namespace Sys2Proof.Machine

variable {w : Nat}

theorem read_insert_same (m : List (Nat × BitVec w)) (a : Nat) (v : BitVec w) (h : ∀ e ∈ m, e.1 ≠ a) :
    Memory.read (Memory.insert m a v) a = v := by
  induction m with
  | nil => simp [Memory.insert, Memory.read]
  | cons e rest ih =>
    obtain ⟨k, u⟩ := e
    have hk : k ≠ a := h (k, u) (by simp)
    have hrest : ∀ e ∈ rest, e.1 ≠ a := fun e he => h e (by simp [he])
    by_cases hlt : a < k
    · simp [Memory.insert, hlt, Memory.read]
    · simp [Memory.insert, hlt, Memory.read, hk, ih hrest]

theorem read_insert_other (m : List (Nat × BitVec w)) {a b : Nat} (v : BitVec w) (h : b ≠ a) :
    Memory.read (Memory.insert m a v) b = Memory.read m b := by
  induction m with
  | nil => simp [Memory.insert, Memory.read, h.symm]
  | cons e rest ih =>
    obtain ⟨k, u⟩ := e
    by_cases hlt : a < k
    · simp [Memory.insert, hlt, Memory.read, h.symm]
    · simp [Memory.insert, hlt, Memory.read, ih]

theorem read_filter_same (m : List (Nat × BitVec w)) (a : Nat) :
    Memory.read (m.filter (fun e => e.1 != a)) a = 0 := by
  induction m with
  | nil => simp [Memory.read]
  | cons e rest ih =>
    obtain ⟨k, u⟩ := e
    by_cases hk : k = a <;> simp_all [Memory.read]

theorem read_filter_other (m : List (Nat × BitVec w)) {a b : Nat} (h : b ≠ a) :
    Memory.read (m.filter (fun e => e.1 != a)) b = Memory.read m b := by
  induction m with
  | nil => rfl
  | cons e rest ih =>
    obtain ⟨k, u⟩ := e
    by_cases hk : k = a
    · subst hk; simp [Memory.read, h.symm, ih]
    · by_cases hb : k = b <;> simp_all [Memory.read]

/-- A read after a write of the same address gives the value written. -/
@[simp] theorem read_write_same (m : List (Nat × BitVec w)) (a : Nat) (v : BitVec w) :
    Memory.read (Memory.write m a v) a = v := by
  unfold Memory.write
  split
  · next h => rw [read_filter_same, h]
  · exact read_insert_same _ _ _ (by simp)

/-- A write leaves every other address as it was. -/
theorem read_write_other (m : List (Nat × BitVec w)) {a b : Nat} (v : BitVec w) (h : b ≠ a) :
    Memory.read (Memory.write m a v) b = Memory.read m b := by
  unfold Memory.write
  split
  · exact read_filter_other m h
  · rw [read_insert_other _ v h, read_filter_other m h]

theorem wf_mono {lo lo' hi : Nat} (m : List (Nat × BitVec w)) (hle : lo ≤ lo') (h : Memory.wf lo' hi m = true) :
    Memory.wf lo hi m = true := by
  cases m with
  | nil => rfl
  | cons e rest =>
    obtain ⟨k, u⟩ := e
    simp only [Memory.wf, Bool.and_eq_true, decide_eq_true_eq] at h ⊢
    exact ⟨⟨⟨by omega, h.1.1.2⟩, h.1.2⟩, h.2⟩

theorem wf_filter {lo hi : Nat} (m : List (Nat × BitVec w)) (p : Nat × BitVec w → Bool) (h : Memory.wf lo hi m = true) :
    Memory.wf lo hi (m.filter p) = true := by
  induction m generalizing lo with
  | nil => rfl
  | cons e rest ih =>
    obtain ⟨k, u⟩ := e
    simp only [Memory.wf, Bool.and_eq_true, decide_eq_true_eq] at h
    by_cases hp : p (k, u) = true
    · simp only [List.filter_cons, hp, if_true, Memory.wf, Bool.and_eq_true, decide_eq_true_eq]
      exact ⟨h.1, ih h.2⟩
    · simp only [List.filter_cons, hp]
      exact wf_mono _ (by omega) (ih h.2)

theorem wf_insert {lo hi : Nat} (m : List (Nat × BitVec w)) {a : Nat} {v : BitVec w} (h : Memory.wf lo hi m = true)
    (hlo : lo ≤ a) (hhi : a < hi) (hv : v ≠ 0) (hne : ∀ e ∈ m, e.1 ≠ a) :
    Memory.wf lo hi (Memory.insert m a v) = true := by
  induction m generalizing lo with
  | nil => simpa [Memory.insert, Memory.wf, hlo, hhi] using hv
  | cons e rest ih =>
    obtain ⟨k, u⟩ := e
    have hk : k ≠ a := hne (k, u) (by simp)
    have hrest : ∀ e ∈ rest, e.1 ≠ a := fun e he => hne e (by simp [he])
    simp only [Memory.wf, Bool.and_eq_true, decide_eq_true_eq] at h
    by_cases hlt : a < k
    · simp only [Memory.insert, hlt, if_true, Memory.wf, Bool.and_eq_true, decide_eq_true_eq]
      exact ⟨⟨⟨hlo, hhi⟩, hv⟩, ⟨⟨by omega, h.1.1.2⟩, h.1.2⟩, h.2⟩
    · simp only [Memory.insert, hlt, if_false, Memory.wf, Bool.and_eq_true, decide_eq_true_eq]
      exact ⟨h.1, ih h.2 (by omega) hrest⟩

/-- A write inside the memory's range keeps the canonical form. -/
theorem wf_write {lo hi : Nat} (m : List (Nat × BitVec w)) (a : Nat) (v : BitVec w) (h : Memory.wf lo hi m = true)
    (hlo : lo ≤ a) (hhi : a < hi) : Memory.wf lo hi (Memory.write m a v) = true := by
  unfold Memory.write
  split
  · exact wf_filter m _ h
  · next hv => exact wf_insert _ (wf_filter m _ h) hlo hhi hv (by simp)

/-- The list power-on fills is canonical. -/
theorem wf_ofList {hi : Nat} (vs : List (BitVec w)) (a : Nat) (h : a + vs.length ≤ hi) :
    Memory.wf a hi (Memory.ofList a vs) = true := by
  induction vs generalizing a with
  | nil => rfl
  | cons v vs ih =>
    simp only [List.length_cons] at h
    have ih' := ih (a + 1) (by omega)
    unfold Memory.ofList
    split
    · exact wf_mono _ (by omega) ih'
    · next hv =>
      simp only [Memory.wf, Bool.and_eq_true, decide_eq_true_eq]
      exact ⟨⟨⟨le_refl a, by omega⟩, hv⟩, ih'⟩

theorem read_ofList_low (vs : List (BitVec w)) {a b : Nat} (h : b < a) : Memory.read (Memory.ofList a vs) b = 0 := by
  induction vs generalizing a with
  | nil => rfl
  | cons v vs ih =>
    unfold Memory.ofList
    split
    · exact ih (by omega)
    · simp [Memory.read, show a ≠ b by omega, ih (show b < a + 1 by omega)]

/-- The list power-on fills holds the k-th value at the k-th address. -/
theorem read_ofList (vs : List (BitVec w)) (a k : Nat) : Memory.read (Memory.ofList a vs) (a + k) = vs.getD k 0 := by
  induction vs generalizing a k with
  | nil => rfl
  | cons v vs ih =>
    unfold Memory.ofList
    cases k with
    | zero =>
      split
      · next h => simp [h, read_ofList_low vs (show a < a + 1 by omega)]
      · simp [Memory.read]
    | succ k =>
      have e : a + (k + 1) = a + 1 + k := by omega
      split
      · rw [e, ih]; simp
      · rw [Memory.read, if_neg (by omega), e, ih]; simp

/-- The memories of the reset state are canonical. -/
theorem reset_memories : ramWf State.reset = true ∧ programWf State.reset = true := by decide

end Sys2Proof.Machine
end

