-- ==== Sys2Proof/Laws/State.lean ====
section
/-!
SUPPORT. One lemma per field per named update of State, true by rfl, so that no later proof unfolds a record update.
-/

namespace Sys2Proof.Machine

variable (s : State)

@[simp] theorem setAcc_acc (v : Byte) : (setAcc v s).acc = v := rfl
@[simp] theorem setAcc_pc (v : Byte) : (setAcc v s).pc = s.pc := rfl
@[simp] theorem setAcc_stack (v : Byte) : (setAcc v s).stack = s.stack := rfl
@[simp] theorem setAcc_c (v : Byte) : (setAcc v s).c = s.c := rfl
@[simp] theorem setAcc_ac (v : Byte) : (setAcc v s).ac = s.ac := rfl
@[simp] theorem setAcc_z (v : Byte) : (setAcc v s).z = s.z := rfl
@[simp] theorem setAcc_ov (v : Byte) : (setAcc v s).ov = s.ov := rfl
@[simp] theorem setAcc_pd (v : Byte) : (setAcc v s).pd = s.pd := rfl
@[simp] theorem setAcc_timedOut (v : Byte) : (setAcc v s).timedOut = s.timedOut := rfl
@[simp] theorem setAcc_mp (v : Byte) : (setAcc v s).mp = s.mp := rfl
@[simp] theorem setAcc_tblp (v : Byte) : (setAcc v s).tblp = s.tblp := rfl
@[simp] theorem setAcc_tblh (v : Byte) : (setAcc v s).tblh = s.tblh := rfl
@[simp] theorem setAcc_wdts (v : Byte) : (setAcc v s).wdts = s.wdts := rfl
@[simp] theorem setAcc_emi (v : Byte) : (setAcc v s).emi = s.emi := rfl
@[simp] theorem setAcc_eei (v : Byte) : (setAcc v s).eei = s.eei := rfl
@[simp] theorem setAcc_eti (v : Byte) : (setAcc v s).eti = s.eti := rfl
@[simp] theorem setAcc_eif (v : Byte) : (setAcc v s).eif = s.eif := rfl
@[simp] theorem setAcc_tf (v : Byte) : (setAcc v s).tf = s.tf := rfl
@[simp] theorem setAcc_tmrCnt (v : Byte) : (setAcc v s).tmrCnt = s.tmrCnt := rfl
@[simp] theorem setAcc_tmrPre (v : Byte) : (setAcc v s).tmrPre = s.tmrPre := rfl
@[simp] theorem setAcc_tm1 (v : Byte) : (setAcc v s).tm1 = s.tm1 := rfl
@[simp] theorem setAcc_tm0 (v : Byte) : (setAcc v s).tm0 = s.tm0 := rfl
@[simp] theorem setAcc_ton (v : Byte) : (setAcc v s).ton = s.ton := rfl
@[simp] theorem setAcc_te (v : Byte) : (setAcc v s).te = s.te := rfl
@[simp] theorem setAcc_pa (v : Byte) : (setAcc v s).pa = s.pa := rfl
@[simp] theorem setAcc_pac (v : Byte) : (setAcc v s).pac = s.pac := rfl
@[simp] theorem setAcc_pb (v : Byte) : (setAcc v s).pb = s.pb := rfl
@[simp] theorem setAcc_pbc (v : Byte) : (setAcc v s).pbc = s.pbc := rfl
@[simp] theorem setAcc_portc (v : Byte) : (setAcc v s).portc = s.portc := rfl
@[simp] theorem setAcc_pcc (v : Byte) : (setAcc v s).pcc = s.pcc := rfl
@[simp] theorem setAcc_ram (v : Byte) : (setAcc v s).ram = s.ram := rfl
@[simp] theorem setAcc_wdtCnt (v : Byte) : (setAcc v s).wdtCnt = s.wdtCnt := rfl
@[simp] theorem setAcc_wdtPre (v : Byte) : (setAcc v s).wdtPre = s.wdtPre := rfl
@[simp] theorem setAcc_cw1 (v : Byte) : (setAcc v s).cw1 = s.cw1 := rfl
@[simp] theorem setAcc_cw2 (v : Byte) : (setAcc v s).cw2 = s.cw2 := rfl
@[simp] theorem setAcc_halted (v : Byte) : (setAcc v s).halted = s.halted := rfl
@[simp] theorem setAcc_pwmRun (v : Byte) : (setAcc v s).pwmRun = s.pwmRun := rfl
@[simp] theorem setAcc_intPad (v : Byte) : (setAcc v s).intPad = s.intPad := rfl
@[simp] theorem setAcc_tmrPad (v : Byte) : (setAcc v s).tmrPad = s.tmrPad := rfl
@[simp] theorem setAcc_resPad (v : Byte) : (setAcc v s).resPad = s.resPad := rfl
@[simp] theorem setAcc_paPads (v : Byte) : (setAcc v s).paPads = s.paPads := rfl
@[simp] theorem setAcc_pbPads (v : Byte) : (setAcc v s).pbPads = s.pbPads := rfl
@[simp] theorem setAcc_pcPads (v : Byte) : (setAcc v s).pcPads = s.pcPads := rfl
@[simp] theorem setAcc_program (v : Byte) : (setAcc v s).program = s.program := rfl
@[simp] theorem setAcc_option (v : Byte) : (setAcc v s).option = s.option := rfl
@[simp] theorem setAcc_env (v : Byte) : (setAcc v s).env = s.env := rfl
@[simp] theorem setAcc_freeCtr (v : Byte) : (setAcc v s).freeCtr = s.freeCtr := rfl

@[simp] theorem setPc_acc (t : ProgAddr) : (setPc t s).acc = s.acc := rfl
@[simp] theorem setPc_pc (t : ProgAddr) : (setPc t s).pc = t := rfl
@[simp] theorem setPc_stack (t : ProgAddr) : (setPc t s).stack = s.stack := rfl
@[simp] theorem setPc_c (t : ProgAddr) : (setPc t s).c = s.c := rfl
@[simp] theorem setPc_ac (t : ProgAddr) : (setPc t s).ac = s.ac := rfl
@[simp] theorem setPc_z (t : ProgAddr) : (setPc t s).z = s.z := rfl
@[simp] theorem setPc_ov (t : ProgAddr) : (setPc t s).ov = s.ov := rfl
@[simp] theorem setPc_pd (t : ProgAddr) : (setPc t s).pd = s.pd := rfl
@[simp] theorem setPc_timedOut (t : ProgAddr) : (setPc t s).timedOut = s.timedOut := rfl
@[simp] theorem setPc_mp (t : ProgAddr) : (setPc t s).mp = s.mp := rfl
@[simp] theorem setPc_tblp (t : ProgAddr) : (setPc t s).tblp = s.tblp := rfl
@[simp] theorem setPc_tblh (t : ProgAddr) : (setPc t s).tblh = s.tblh := rfl
@[simp] theorem setPc_wdts (t : ProgAddr) : (setPc t s).wdts = s.wdts := rfl
@[simp] theorem setPc_emi (t : ProgAddr) : (setPc t s).emi = s.emi := rfl
@[simp] theorem setPc_eei (t : ProgAddr) : (setPc t s).eei = s.eei := rfl
@[simp] theorem setPc_eti (t : ProgAddr) : (setPc t s).eti = s.eti := rfl
@[simp] theorem setPc_eif (t : ProgAddr) : (setPc t s).eif = s.eif := rfl
@[simp] theorem setPc_tf (t : ProgAddr) : (setPc t s).tf = s.tf := rfl
@[simp] theorem setPc_tmrCnt (t : ProgAddr) : (setPc t s).tmrCnt = s.tmrCnt := rfl
@[simp] theorem setPc_tmrPre (t : ProgAddr) : (setPc t s).tmrPre = s.tmrPre := rfl
@[simp] theorem setPc_tm1 (t : ProgAddr) : (setPc t s).tm1 = s.tm1 := rfl
@[simp] theorem setPc_tm0 (t : ProgAddr) : (setPc t s).tm0 = s.tm0 := rfl
@[simp] theorem setPc_ton (t : ProgAddr) : (setPc t s).ton = s.ton := rfl
@[simp] theorem setPc_te (t : ProgAddr) : (setPc t s).te = s.te := rfl
@[simp] theorem setPc_pa (t : ProgAddr) : (setPc t s).pa = s.pa := rfl
@[simp] theorem setPc_pac (t : ProgAddr) : (setPc t s).pac = s.pac := rfl
@[simp] theorem setPc_pb (t : ProgAddr) : (setPc t s).pb = s.pb := rfl
@[simp] theorem setPc_pbc (t : ProgAddr) : (setPc t s).pbc = s.pbc := rfl
@[simp] theorem setPc_portc (t : ProgAddr) : (setPc t s).portc = s.portc := rfl
@[simp] theorem setPc_pcc (t : ProgAddr) : (setPc t s).pcc = s.pcc := rfl
@[simp] theorem setPc_ram (t : ProgAddr) : (setPc t s).ram = s.ram := rfl
@[simp] theorem setPc_wdtCnt (t : ProgAddr) : (setPc t s).wdtCnt = s.wdtCnt := rfl
@[simp] theorem setPc_wdtPre (t : ProgAddr) : (setPc t s).wdtPre = s.wdtPre := rfl
@[simp] theorem setPc_cw1 (t : ProgAddr) : (setPc t s).cw1 = s.cw1 := rfl
@[simp] theorem setPc_cw2 (t : ProgAddr) : (setPc t s).cw2 = s.cw2 := rfl
@[simp] theorem setPc_halted (t : ProgAddr) : (setPc t s).halted = s.halted := rfl
@[simp] theorem setPc_pwmRun (t : ProgAddr) : (setPc t s).pwmRun = s.pwmRun := rfl
@[simp] theorem setPc_intPad (t : ProgAddr) : (setPc t s).intPad = s.intPad := rfl
@[simp] theorem setPc_tmrPad (t : ProgAddr) : (setPc t s).tmrPad = s.tmrPad := rfl
@[simp] theorem setPc_resPad (t : ProgAddr) : (setPc t s).resPad = s.resPad := rfl
@[simp] theorem setPc_paPads (t : ProgAddr) : (setPc t s).paPads = s.paPads := rfl
@[simp] theorem setPc_pbPads (t : ProgAddr) : (setPc t s).pbPads = s.pbPads := rfl
@[simp] theorem setPc_pcPads (t : ProgAddr) : (setPc t s).pcPads = s.pcPads := rfl
@[simp] theorem setPc_program (t : ProgAddr) : (setPc t s).program = s.program := rfl
@[simp] theorem setPc_option (t : ProgAddr) : (setPc t s).option = s.option := rfl
@[simp] theorem setPc_env (t : ProgAddr) : (setPc t s).env = s.env := rfl
@[simp] theorem setPc_freeCtr (t : ProgAddr) : (setPc t s).freeCtr = s.freeCtr := rfl

@[simp] theorem skip_acc : (skip s).acc = s.acc := rfl
@[simp] theorem skip_pc : (skip s).pc = s.pc + 1 := rfl
@[simp] theorem skip_stack : (skip s).stack = s.stack := rfl
@[simp] theorem skip_c : (skip s).c = s.c := rfl
@[simp] theorem skip_ac : (skip s).ac = s.ac := rfl
@[simp] theorem skip_z : (skip s).z = s.z := rfl
@[simp] theorem skip_ov : (skip s).ov = s.ov := rfl
@[simp] theorem skip_pd : (skip s).pd = s.pd := rfl
@[simp] theorem skip_timedOut : (skip s).timedOut = s.timedOut := rfl
@[simp] theorem skip_mp : (skip s).mp = s.mp := rfl
@[simp] theorem skip_tblp : (skip s).tblp = s.tblp := rfl
@[simp] theorem skip_tblh : (skip s).tblh = s.tblh := rfl
@[simp] theorem skip_wdts : (skip s).wdts = s.wdts := rfl
@[simp] theorem skip_emi : (skip s).emi = s.emi := rfl
@[simp] theorem skip_eei : (skip s).eei = s.eei := rfl
@[simp] theorem skip_eti : (skip s).eti = s.eti := rfl
@[simp] theorem skip_eif : (skip s).eif = s.eif := rfl
@[simp] theorem skip_tf : (skip s).tf = s.tf := rfl
@[simp] theorem skip_tmrCnt : (skip s).tmrCnt = s.tmrCnt := rfl
@[simp] theorem skip_tmrPre : (skip s).tmrPre = s.tmrPre := rfl
@[simp] theorem skip_tm1 : (skip s).tm1 = s.tm1 := rfl
@[simp] theorem skip_tm0 : (skip s).tm0 = s.tm0 := rfl
@[simp] theorem skip_ton : (skip s).ton = s.ton := rfl
@[simp] theorem skip_te : (skip s).te = s.te := rfl
@[simp] theorem skip_pa : (skip s).pa = s.pa := rfl
@[simp] theorem skip_pac : (skip s).pac = s.pac := rfl
@[simp] theorem skip_pb : (skip s).pb = s.pb := rfl
@[simp] theorem skip_pbc : (skip s).pbc = s.pbc := rfl
@[simp] theorem skip_portc : (skip s).portc = s.portc := rfl
@[simp] theorem skip_pcc : (skip s).pcc = s.pcc := rfl
@[simp] theorem skip_ram : (skip s).ram = s.ram := rfl
@[simp] theorem skip_wdtCnt : (skip s).wdtCnt = s.wdtCnt := rfl
@[simp] theorem skip_wdtPre : (skip s).wdtPre = s.wdtPre := rfl
@[simp] theorem skip_cw1 : (skip s).cw1 = s.cw1 := rfl
@[simp] theorem skip_cw2 : (skip s).cw2 = s.cw2 := rfl
@[simp] theorem skip_halted : (skip s).halted = s.halted := rfl
@[simp] theorem skip_pwmRun : (skip s).pwmRun = s.pwmRun := rfl
@[simp] theorem skip_intPad : (skip s).intPad = s.intPad := rfl
@[simp] theorem skip_tmrPad : (skip s).tmrPad = s.tmrPad := rfl
@[simp] theorem skip_resPad : (skip s).resPad = s.resPad := rfl
@[simp] theorem skip_paPads : (skip s).paPads = s.paPads := rfl
@[simp] theorem skip_pbPads : (skip s).pbPads = s.pbPads := rfl
@[simp] theorem skip_pcPads : (skip s).pcPads = s.pcPads := rfl
@[simp] theorem skip_program : (skip s).program = s.program := rfl
@[simp] theorem skip_option : (skip s).option = s.option := rfl
@[simp] theorem skip_env : (skip s).env = s.env := rfl
@[simp] theorem skip_freeCtr : (skip s).freeCtr = s.freeCtr := rfl

@[simp] theorem push_acc (t : ProgAddr) : (push t s).acc = s.acc := rfl
@[simp] theorem push_pc (t : ProgAddr) : (push t s).pc = s.pc := rfl
@[simp] theorem push_stack (t : ProgAddr) : (push t s).stack = if s.stack.length < 2 then s.stack ++ [t] else [s.stack.getD 1 0, t] := rfl
@[simp] theorem push_c (t : ProgAddr) : (push t s).c = s.c := rfl
@[simp] theorem push_ac (t : ProgAddr) : (push t s).ac = s.ac := rfl
@[simp] theorem push_z (t : ProgAddr) : (push t s).z = s.z := rfl
@[simp] theorem push_ov (t : ProgAddr) : (push t s).ov = s.ov := rfl
@[simp] theorem push_pd (t : ProgAddr) : (push t s).pd = s.pd := rfl
@[simp] theorem push_timedOut (t : ProgAddr) : (push t s).timedOut = s.timedOut := rfl
@[simp] theorem push_mp (t : ProgAddr) : (push t s).mp = s.mp := rfl
@[simp] theorem push_tblp (t : ProgAddr) : (push t s).tblp = s.tblp := rfl
@[simp] theorem push_tblh (t : ProgAddr) : (push t s).tblh = s.tblh := rfl
@[simp] theorem push_wdts (t : ProgAddr) : (push t s).wdts = s.wdts := rfl
@[simp] theorem push_emi (t : ProgAddr) : (push t s).emi = s.emi := rfl
@[simp] theorem push_eei (t : ProgAddr) : (push t s).eei = s.eei := rfl
@[simp] theorem push_eti (t : ProgAddr) : (push t s).eti = s.eti := rfl
@[simp] theorem push_eif (t : ProgAddr) : (push t s).eif = s.eif := rfl
@[simp] theorem push_tf (t : ProgAddr) : (push t s).tf = s.tf := rfl
@[simp] theorem push_tmrCnt (t : ProgAddr) : (push t s).tmrCnt = s.tmrCnt := rfl
@[simp] theorem push_tmrPre (t : ProgAddr) : (push t s).tmrPre = s.tmrPre := rfl
@[simp] theorem push_tm1 (t : ProgAddr) : (push t s).tm1 = s.tm1 := rfl
@[simp] theorem push_tm0 (t : ProgAddr) : (push t s).tm0 = s.tm0 := rfl
@[simp] theorem push_ton (t : ProgAddr) : (push t s).ton = s.ton := rfl
@[simp] theorem push_te (t : ProgAddr) : (push t s).te = s.te := rfl
@[simp] theorem push_pa (t : ProgAddr) : (push t s).pa = s.pa := rfl
@[simp] theorem push_pac (t : ProgAddr) : (push t s).pac = s.pac := rfl
@[simp] theorem push_pb (t : ProgAddr) : (push t s).pb = s.pb := rfl
@[simp] theorem push_pbc (t : ProgAddr) : (push t s).pbc = s.pbc := rfl
@[simp] theorem push_portc (t : ProgAddr) : (push t s).portc = s.portc := rfl
@[simp] theorem push_pcc (t : ProgAddr) : (push t s).pcc = s.pcc := rfl
@[simp] theorem push_ram (t : ProgAddr) : (push t s).ram = s.ram := rfl
@[simp] theorem push_wdtCnt (t : ProgAddr) : (push t s).wdtCnt = s.wdtCnt := rfl
@[simp] theorem push_wdtPre (t : ProgAddr) : (push t s).wdtPre = s.wdtPre := rfl
@[simp] theorem push_cw1 (t : ProgAddr) : (push t s).cw1 = s.cw1 := rfl
@[simp] theorem push_cw2 (t : ProgAddr) : (push t s).cw2 = s.cw2 := rfl
@[simp] theorem push_halted (t : ProgAddr) : (push t s).halted = s.halted := rfl
@[simp] theorem push_pwmRun (t : ProgAddr) : (push t s).pwmRun = s.pwmRun := rfl
@[simp] theorem push_intPad (t : ProgAddr) : (push t s).intPad = s.intPad := rfl
@[simp] theorem push_tmrPad (t : ProgAddr) : (push t s).tmrPad = s.tmrPad := rfl
@[simp] theorem push_resPad (t : ProgAddr) : (push t s).resPad = s.resPad := rfl
@[simp] theorem push_paPads (t : ProgAddr) : (push t s).paPads = s.paPads := rfl
@[simp] theorem push_pbPads (t : ProgAddr) : (push t s).pbPads = s.pbPads := rfl
@[simp] theorem push_pcPads (t : ProgAddr) : (push t s).pcPads = s.pcPads := rfl
@[simp] theorem push_program (t : ProgAddr) : (push t s).program = s.program := rfl
@[simp] theorem push_option (t : ProgAddr) : (push t s).option = s.option := rfl
@[simp] theorem push_env (t : ProgAddr) : (push t s).env = s.env := rfl
@[simp] theorem push_freeCtr (t : ProgAddr) : (push t s).freeCtr = s.freeCtr := rfl

@[simp] theorem setFlags_acc (f : FlagWrite) : (setFlags f s).acc = s.acc := rfl
@[simp] theorem setFlags_pc (f : FlagWrite) : (setFlags f s).pc = s.pc := rfl
@[simp] theorem setFlags_stack (f : FlagWrite) : (setFlags f s).stack = s.stack := rfl
@[simp] theorem setFlags_c (f : FlagWrite) : (setFlags f s).c = f.c.getD s.c := rfl
@[simp] theorem setFlags_ac (f : FlagWrite) : (setFlags f s).ac = f.ac.getD s.ac := rfl
@[simp] theorem setFlags_z (f : FlagWrite) : (setFlags f s).z = f.z.getD s.z := rfl
@[simp] theorem setFlags_ov (f : FlagWrite) : (setFlags f s).ov = f.ov.getD s.ov := rfl
@[simp] theorem setFlags_pd (f : FlagWrite) : (setFlags f s).pd = s.pd := rfl
@[simp] theorem setFlags_timedOut (f : FlagWrite) : (setFlags f s).timedOut = s.timedOut := rfl
@[simp] theorem setFlags_mp (f : FlagWrite) : (setFlags f s).mp = s.mp := rfl
@[simp] theorem setFlags_tblp (f : FlagWrite) : (setFlags f s).tblp = s.tblp := rfl
@[simp] theorem setFlags_tblh (f : FlagWrite) : (setFlags f s).tblh = s.tblh := rfl
@[simp] theorem setFlags_wdts (f : FlagWrite) : (setFlags f s).wdts = s.wdts := rfl
@[simp] theorem setFlags_emi (f : FlagWrite) : (setFlags f s).emi = s.emi := rfl
@[simp] theorem setFlags_eei (f : FlagWrite) : (setFlags f s).eei = s.eei := rfl
@[simp] theorem setFlags_eti (f : FlagWrite) : (setFlags f s).eti = s.eti := rfl
@[simp] theorem setFlags_eif (f : FlagWrite) : (setFlags f s).eif = s.eif := rfl
@[simp] theorem setFlags_tf (f : FlagWrite) : (setFlags f s).tf = s.tf := rfl
@[simp] theorem setFlags_tmrCnt (f : FlagWrite) : (setFlags f s).tmrCnt = s.tmrCnt := rfl
@[simp] theorem setFlags_tmrPre (f : FlagWrite) : (setFlags f s).tmrPre = s.tmrPre := rfl
@[simp] theorem setFlags_tm1 (f : FlagWrite) : (setFlags f s).tm1 = s.tm1 := rfl
@[simp] theorem setFlags_tm0 (f : FlagWrite) : (setFlags f s).tm0 = s.tm0 := rfl
@[simp] theorem setFlags_ton (f : FlagWrite) : (setFlags f s).ton = s.ton := rfl
@[simp] theorem setFlags_te (f : FlagWrite) : (setFlags f s).te = s.te := rfl
@[simp] theorem setFlags_pa (f : FlagWrite) : (setFlags f s).pa = s.pa := rfl
@[simp] theorem setFlags_pac (f : FlagWrite) : (setFlags f s).pac = s.pac := rfl
@[simp] theorem setFlags_pb (f : FlagWrite) : (setFlags f s).pb = s.pb := rfl
@[simp] theorem setFlags_pbc (f : FlagWrite) : (setFlags f s).pbc = s.pbc := rfl
@[simp] theorem setFlags_portc (f : FlagWrite) : (setFlags f s).portc = s.portc := rfl
@[simp] theorem setFlags_pcc (f : FlagWrite) : (setFlags f s).pcc = s.pcc := rfl
@[simp] theorem setFlags_ram (f : FlagWrite) : (setFlags f s).ram = s.ram := rfl
@[simp] theorem setFlags_wdtCnt (f : FlagWrite) : (setFlags f s).wdtCnt = s.wdtCnt := rfl
@[simp] theorem setFlags_wdtPre (f : FlagWrite) : (setFlags f s).wdtPre = s.wdtPre := rfl
@[simp] theorem setFlags_cw1 (f : FlagWrite) : (setFlags f s).cw1 = s.cw1 := rfl
@[simp] theorem setFlags_cw2 (f : FlagWrite) : (setFlags f s).cw2 = s.cw2 := rfl
@[simp] theorem setFlags_halted (f : FlagWrite) : (setFlags f s).halted = s.halted := rfl
@[simp] theorem setFlags_pwmRun (f : FlagWrite) : (setFlags f s).pwmRun = s.pwmRun := rfl
@[simp] theorem setFlags_intPad (f : FlagWrite) : (setFlags f s).intPad = s.intPad := rfl
@[simp] theorem setFlags_tmrPad (f : FlagWrite) : (setFlags f s).tmrPad = s.tmrPad := rfl
@[simp] theorem setFlags_resPad (f : FlagWrite) : (setFlags f s).resPad = s.resPad := rfl
@[simp] theorem setFlags_paPads (f : FlagWrite) : (setFlags f s).paPads = s.paPads := rfl
@[simp] theorem setFlags_pbPads (f : FlagWrite) : (setFlags f s).pbPads = s.pbPads := rfl
@[simp] theorem setFlags_pcPads (f : FlagWrite) : (setFlags f s).pcPads = s.pcPads := rfl
@[simp] theorem setFlags_program (f : FlagWrite) : (setFlags f s).program = s.program := rfl
@[simp] theorem setFlags_option (f : FlagWrite) : (setFlags f s).option = s.option := rfl
@[simp] theorem setFlags_env (f : FlagWrite) : (setFlags f s).env = s.env := rfl
@[simp] theorem setFlags_freeCtr (f : FlagWrite) : (setFlags f s).freeCtr = s.freeCtr := rfl

@[simp] theorem toAcc_acc (r : Byte) (f : FlagWrite) : (toAcc r f s).acc = r := rfl
@[simp] theorem toAcc_pc (r : Byte) (f : FlagWrite) : (toAcc r f s).pc = s.pc := rfl
@[simp] theorem toAcc_stack (r : Byte) (f : FlagWrite) : (toAcc r f s).stack = s.stack := rfl
@[simp] theorem toAcc_c (r : Byte) (f : FlagWrite) : (toAcc r f s).c = f.c.getD s.c := rfl
@[simp] theorem toAcc_ac (r : Byte) (f : FlagWrite) : (toAcc r f s).ac = f.ac.getD s.ac := rfl
@[simp] theorem toAcc_z (r : Byte) (f : FlagWrite) : (toAcc r f s).z = f.z.getD s.z := rfl
@[simp] theorem toAcc_ov (r : Byte) (f : FlagWrite) : (toAcc r f s).ov = f.ov.getD s.ov := rfl
@[simp] theorem toAcc_pd (r : Byte) (f : FlagWrite) : (toAcc r f s).pd = s.pd := rfl
@[simp] theorem toAcc_timedOut (r : Byte) (f : FlagWrite) : (toAcc r f s).timedOut = s.timedOut := rfl
@[simp] theorem toAcc_mp (r : Byte) (f : FlagWrite) : (toAcc r f s).mp = s.mp := rfl
@[simp] theorem toAcc_tblp (r : Byte) (f : FlagWrite) : (toAcc r f s).tblp = s.tblp := rfl
@[simp] theorem toAcc_tblh (r : Byte) (f : FlagWrite) : (toAcc r f s).tblh = s.tblh := rfl
@[simp] theorem toAcc_wdts (r : Byte) (f : FlagWrite) : (toAcc r f s).wdts = s.wdts := rfl
@[simp] theorem toAcc_emi (r : Byte) (f : FlagWrite) : (toAcc r f s).emi = s.emi := rfl
@[simp] theorem toAcc_eei (r : Byte) (f : FlagWrite) : (toAcc r f s).eei = s.eei := rfl
@[simp] theorem toAcc_eti (r : Byte) (f : FlagWrite) : (toAcc r f s).eti = s.eti := rfl
@[simp] theorem toAcc_eif (r : Byte) (f : FlagWrite) : (toAcc r f s).eif = s.eif := rfl
@[simp] theorem toAcc_tf (r : Byte) (f : FlagWrite) : (toAcc r f s).tf = s.tf := rfl
@[simp] theorem toAcc_tmrCnt (r : Byte) (f : FlagWrite) : (toAcc r f s).tmrCnt = s.tmrCnt := rfl
@[simp] theorem toAcc_tmrPre (r : Byte) (f : FlagWrite) : (toAcc r f s).tmrPre = s.tmrPre := rfl
@[simp] theorem toAcc_tm1 (r : Byte) (f : FlagWrite) : (toAcc r f s).tm1 = s.tm1 := rfl
@[simp] theorem toAcc_tm0 (r : Byte) (f : FlagWrite) : (toAcc r f s).tm0 = s.tm0 := rfl
@[simp] theorem toAcc_ton (r : Byte) (f : FlagWrite) : (toAcc r f s).ton = s.ton := rfl
@[simp] theorem toAcc_te (r : Byte) (f : FlagWrite) : (toAcc r f s).te = s.te := rfl
@[simp] theorem toAcc_pa (r : Byte) (f : FlagWrite) : (toAcc r f s).pa = s.pa := rfl
@[simp] theorem toAcc_pac (r : Byte) (f : FlagWrite) : (toAcc r f s).pac = s.pac := rfl
@[simp] theorem toAcc_pb (r : Byte) (f : FlagWrite) : (toAcc r f s).pb = s.pb := rfl
@[simp] theorem toAcc_pbc (r : Byte) (f : FlagWrite) : (toAcc r f s).pbc = s.pbc := rfl
@[simp] theorem toAcc_portc (r : Byte) (f : FlagWrite) : (toAcc r f s).portc = s.portc := rfl
@[simp] theorem toAcc_pcc (r : Byte) (f : FlagWrite) : (toAcc r f s).pcc = s.pcc := rfl
@[simp] theorem toAcc_ram (r : Byte) (f : FlagWrite) : (toAcc r f s).ram = s.ram := rfl
@[simp] theorem toAcc_wdtCnt (r : Byte) (f : FlagWrite) : (toAcc r f s).wdtCnt = s.wdtCnt := rfl
@[simp] theorem toAcc_wdtPre (r : Byte) (f : FlagWrite) : (toAcc r f s).wdtPre = s.wdtPre := rfl
@[simp] theorem toAcc_cw1 (r : Byte) (f : FlagWrite) : (toAcc r f s).cw1 = s.cw1 := rfl
@[simp] theorem toAcc_cw2 (r : Byte) (f : FlagWrite) : (toAcc r f s).cw2 = s.cw2 := rfl
@[simp] theorem toAcc_halted (r : Byte) (f : FlagWrite) : (toAcc r f s).halted = s.halted := rfl
@[simp] theorem toAcc_pwmRun (r : Byte) (f : FlagWrite) : (toAcc r f s).pwmRun = s.pwmRun := rfl
@[simp] theorem toAcc_intPad (r : Byte) (f : FlagWrite) : (toAcc r f s).intPad = s.intPad := rfl
@[simp] theorem toAcc_tmrPad (r : Byte) (f : FlagWrite) : (toAcc r f s).tmrPad = s.tmrPad := rfl
@[simp] theorem toAcc_resPad (r : Byte) (f : FlagWrite) : (toAcc r f s).resPad = s.resPad := rfl
@[simp] theorem toAcc_paPads (r : Byte) (f : FlagWrite) : (toAcc r f s).paPads = s.paPads := rfl
@[simp] theorem toAcc_pbPads (r : Byte) (f : FlagWrite) : (toAcc r f s).pbPads = s.pbPads := rfl
@[simp] theorem toAcc_pcPads (r : Byte) (f : FlagWrite) : (toAcc r f s).pcPads = s.pcPads := rfl
@[simp] theorem toAcc_program (r : Byte) (f : FlagWrite) : (toAcc r f s).program = s.program := rfl
@[simp] theorem toAcc_option (r : Byte) (f : FlagWrite) : (toAcc r f s).option = s.option := rfl
@[simp] theorem toAcc_env (r : Byte) (f : FlagWrite) : (toAcc r f s).env = s.env := rfl
@[simp] theorem toAcc_freeCtr (r : Byte) (f : FlagWrite) : (toAcc r f s).freeCtr = s.freeCtr := rfl

@[simp] theorem clearWdt_acc : (clearWdt s).acc = s.acc := rfl
@[simp] theorem clearWdt_pc : (clearWdt s).pc = s.pc := rfl
@[simp] theorem clearWdt_stack : (clearWdt s).stack = s.stack := rfl
@[simp] theorem clearWdt_c : (clearWdt s).c = s.c := rfl
@[simp] theorem clearWdt_ac : (clearWdt s).ac = s.ac := rfl
@[simp] theorem clearWdt_z : (clearWdt s).z = s.z := rfl
@[simp] theorem clearWdt_ov : (clearWdt s).ov = s.ov := rfl
@[simp] theorem clearWdt_pd : (clearWdt s).pd = s.pd := rfl
@[simp] theorem clearWdt_timedOut : (clearWdt s).timedOut = s.timedOut := rfl
@[simp] theorem clearWdt_mp : (clearWdt s).mp = s.mp := rfl
@[simp] theorem clearWdt_tblp : (clearWdt s).tblp = s.tblp := rfl
@[simp] theorem clearWdt_tblh : (clearWdt s).tblh = s.tblh := rfl
@[simp] theorem clearWdt_wdts : (clearWdt s).wdts = s.wdts := rfl
@[simp] theorem clearWdt_emi : (clearWdt s).emi = s.emi := rfl
@[simp] theorem clearWdt_eei : (clearWdt s).eei = s.eei := rfl
@[simp] theorem clearWdt_eti : (clearWdt s).eti = s.eti := rfl
@[simp] theorem clearWdt_eif : (clearWdt s).eif = s.eif := rfl
@[simp] theorem clearWdt_tf : (clearWdt s).tf = s.tf := rfl
@[simp] theorem clearWdt_tmrCnt : (clearWdt s).tmrCnt = s.tmrCnt := rfl
@[simp] theorem clearWdt_tmrPre : (clearWdt s).tmrPre = s.tmrPre := rfl
@[simp] theorem clearWdt_tm1 : (clearWdt s).tm1 = s.tm1 := rfl
@[simp] theorem clearWdt_tm0 : (clearWdt s).tm0 = s.tm0 := rfl
@[simp] theorem clearWdt_ton : (clearWdt s).ton = s.ton := rfl
@[simp] theorem clearWdt_te : (clearWdt s).te = s.te := rfl
@[simp] theorem clearWdt_pa : (clearWdt s).pa = s.pa := rfl
@[simp] theorem clearWdt_pac : (clearWdt s).pac = s.pac := rfl
@[simp] theorem clearWdt_pb : (clearWdt s).pb = s.pb := rfl
@[simp] theorem clearWdt_pbc : (clearWdt s).pbc = s.pbc := rfl
@[simp] theorem clearWdt_portc : (clearWdt s).portc = s.portc := rfl
@[simp] theorem clearWdt_pcc : (clearWdt s).pcc = s.pcc := rfl
@[simp] theorem clearWdt_ram : (clearWdt s).ram = s.ram := rfl
@[simp] theorem clearWdt_wdtCnt : (clearWdt s).wdtCnt = 0 := rfl
@[simp] theorem clearWdt_wdtPre : (clearWdt s).wdtPre = 0 := rfl
@[simp] theorem clearWdt_cw1 : (clearWdt s).cw1 = s.cw1 := rfl
@[simp] theorem clearWdt_cw2 : (clearWdt s).cw2 = s.cw2 := rfl
@[simp] theorem clearWdt_halted : (clearWdt s).halted = s.halted := rfl
@[simp] theorem clearWdt_pwmRun : (clearWdt s).pwmRun = s.pwmRun := rfl
@[simp] theorem clearWdt_intPad : (clearWdt s).intPad = s.intPad := rfl
@[simp] theorem clearWdt_tmrPad : (clearWdt s).tmrPad = s.tmrPad := rfl
@[simp] theorem clearWdt_resPad : (clearWdt s).resPad = s.resPad := rfl
@[simp] theorem clearWdt_paPads : (clearWdt s).paPads = s.paPads := rfl
@[simp] theorem clearWdt_pbPads : (clearWdt s).pbPads = s.pbPads := rfl
@[simp] theorem clearWdt_pcPads : (clearWdt s).pcPads = s.pcPads := rfl
@[simp] theorem clearWdt_program : (clearWdt s).program = s.program := rfl
@[simp] theorem clearWdt_option : (clearWdt s).option = s.option := rfl
@[simp] theorem clearWdt_env : (clearWdt s).env = s.env := rfl
@[simp] theorem clearWdt_freeCtr : (clearWdt s).freeCtr = s.freeCtr := rfl

@[simp] theorem advance_acc : (advance s).acc = s.acc := rfl
@[simp] theorem advance_pc : (advance s).pc = s.pc + 1 := rfl
@[simp] theorem advance_stack : (advance s).stack = s.stack := rfl
@[simp] theorem advance_c : (advance s).c = s.c := rfl
@[simp] theorem advance_ac : (advance s).ac = s.ac := rfl
@[simp] theorem advance_z : (advance s).z = s.z := rfl
@[simp] theorem advance_ov : (advance s).ov = s.ov := rfl
@[simp] theorem advance_pd : (advance s).pd = s.pd := rfl
@[simp] theorem advance_timedOut : (advance s).timedOut = s.timedOut := rfl
@[simp] theorem advance_mp : (advance s).mp = s.mp := rfl
@[simp] theorem advance_tblp : (advance s).tblp = s.tblp := rfl
@[simp] theorem advance_tblh : (advance s).tblh = s.tblh := rfl
@[simp] theorem advance_wdts : (advance s).wdts = s.wdts := rfl
@[simp] theorem advance_emi : (advance s).emi = s.emi := rfl
@[simp] theorem advance_eei : (advance s).eei = s.eei := rfl
@[simp] theorem advance_eti : (advance s).eti = s.eti := rfl
@[simp] theorem advance_eif : (advance s).eif = s.eif := rfl
@[simp] theorem advance_tf : (advance s).tf = s.tf := rfl
@[simp] theorem advance_tmrCnt : (advance s).tmrCnt = s.tmrCnt := rfl
@[simp] theorem advance_tmrPre : (advance s).tmrPre = s.tmrPre := rfl
@[simp] theorem advance_tm1 : (advance s).tm1 = s.tm1 := rfl
@[simp] theorem advance_tm0 : (advance s).tm0 = s.tm0 := rfl
@[simp] theorem advance_ton : (advance s).ton = s.ton := rfl
@[simp] theorem advance_te : (advance s).te = s.te := rfl
@[simp] theorem advance_pa : (advance s).pa = s.pa := rfl
@[simp] theorem advance_pac : (advance s).pac = s.pac := rfl
@[simp] theorem advance_pb : (advance s).pb = s.pb := rfl
@[simp] theorem advance_pbc : (advance s).pbc = s.pbc := rfl
@[simp] theorem advance_portc : (advance s).portc = s.portc := rfl
@[simp] theorem advance_pcc : (advance s).pcc = s.pcc := rfl
@[simp] theorem advance_ram : (advance s).ram = s.ram := rfl
@[simp] theorem advance_wdtCnt : (advance s).wdtCnt = s.wdtCnt := rfl
@[simp] theorem advance_wdtPre : (advance s).wdtPre = s.wdtPre := rfl
@[simp] theorem advance_cw1 : (advance s).cw1 = s.cw1 := rfl
@[simp] theorem advance_cw2 : (advance s).cw2 = s.cw2 := rfl
@[simp] theorem advance_halted : (advance s).halted = s.halted := rfl
@[simp] theorem advance_pwmRun : (advance s).pwmRun = s.pwmRun := rfl
@[simp] theorem advance_intPad : (advance s).intPad = s.intPad := rfl
@[simp] theorem advance_tmrPad : (advance s).tmrPad = s.tmrPad := rfl
@[simp] theorem advance_resPad : (advance s).resPad = s.resPad := rfl
@[simp] theorem advance_paPads : (advance s).paPads = s.paPads := rfl
@[simp] theorem advance_pbPads : (advance s).pbPads = s.pbPads := rfl
@[simp] theorem advance_pcPads : (advance s).pcPads = s.pcPads := rfl
@[simp] theorem advance_program : (advance s).program = s.program := rfl
@[simp] theorem advance_option : (advance s).option = s.option := rfl
@[simp] theorem advance_env : (advance s).env = s.env := rfl
@[simp] theorem advance_freeCtr : (advance s).freeCtr = s.freeCtr := rfl

@[simp] theorem openFlags_acc : (openFlags s).acc = s.acc := rfl
@[simp] theorem openFlags_pc : (openFlags s).pc = s.pc := rfl
@[simp] theorem openFlags_stack : (openFlags s).stack = s.stack := rfl
@[simp] theorem openFlags_c : (openFlags s).c = (Config.statusClash s.freeCtr).getLsbD 0 := rfl
@[simp] theorem openFlags_ac : (openFlags s).ac = (Config.statusClash s.freeCtr).getLsbD 1 := rfl
@[simp] theorem openFlags_z : (openFlags s).z = (Config.statusClash s.freeCtr).getLsbD 2 := rfl
@[simp] theorem openFlags_ov : (openFlags s).ov = (Config.statusClash s.freeCtr).getLsbD 3 := rfl
@[simp] theorem openFlags_pd : (openFlags s).pd = s.pd := rfl
@[simp] theorem openFlags_timedOut : (openFlags s).timedOut = s.timedOut := rfl
@[simp] theorem openFlags_mp : (openFlags s).mp = s.mp := rfl
@[simp] theorem openFlags_tblp : (openFlags s).tblp = s.tblp := rfl
@[simp] theorem openFlags_tblh : (openFlags s).tblh = s.tblh := rfl
@[simp] theorem openFlags_wdts : (openFlags s).wdts = s.wdts := rfl
@[simp] theorem openFlags_emi : (openFlags s).emi = s.emi := rfl
@[simp] theorem openFlags_eei : (openFlags s).eei = s.eei := rfl
@[simp] theorem openFlags_eti : (openFlags s).eti = s.eti := rfl
@[simp] theorem openFlags_eif : (openFlags s).eif = s.eif := rfl
@[simp] theorem openFlags_tf : (openFlags s).tf = s.tf := rfl
@[simp] theorem openFlags_tmrCnt : (openFlags s).tmrCnt = s.tmrCnt := rfl
@[simp] theorem openFlags_tmrPre : (openFlags s).tmrPre = s.tmrPre := rfl
@[simp] theorem openFlags_tm1 : (openFlags s).tm1 = s.tm1 := rfl
@[simp] theorem openFlags_tm0 : (openFlags s).tm0 = s.tm0 := rfl
@[simp] theorem openFlags_ton : (openFlags s).ton = s.ton := rfl
@[simp] theorem openFlags_te : (openFlags s).te = s.te := rfl
@[simp] theorem openFlags_pa : (openFlags s).pa = s.pa := rfl
@[simp] theorem openFlags_pac : (openFlags s).pac = s.pac := rfl
@[simp] theorem openFlags_pb : (openFlags s).pb = s.pb := rfl
@[simp] theorem openFlags_pbc : (openFlags s).pbc = s.pbc := rfl
@[simp] theorem openFlags_portc : (openFlags s).portc = s.portc := rfl
@[simp] theorem openFlags_pcc : (openFlags s).pcc = s.pcc := rfl
@[simp] theorem openFlags_ram : (openFlags s).ram = s.ram := rfl
@[simp] theorem openFlags_wdtCnt : (openFlags s).wdtCnt = s.wdtCnt := rfl
@[simp] theorem openFlags_wdtPre : (openFlags s).wdtPre = s.wdtPre := rfl
@[simp] theorem openFlags_cw1 : (openFlags s).cw1 = s.cw1 := rfl
@[simp] theorem openFlags_cw2 : (openFlags s).cw2 = s.cw2 := rfl
@[simp] theorem openFlags_halted : (openFlags s).halted = s.halted := rfl
@[simp] theorem openFlags_pwmRun : (openFlags s).pwmRun = s.pwmRun := rfl
@[simp] theorem openFlags_intPad : (openFlags s).intPad = s.intPad := rfl
@[simp] theorem openFlags_tmrPad : (openFlags s).tmrPad = s.tmrPad := rfl
@[simp] theorem openFlags_resPad : (openFlags s).resPad = s.resPad := rfl
@[simp] theorem openFlags_paPads : (openFlags s).paPads = s.paPads := rfl
@[simp] theorem openFlags_pbPads : (openFlags s).pbPads = s.pbPads := rfl
@[simp] theorem openFlags_pcPads : (openFlags s).pcPads = s.pcPads := rfl
@[simp] theorem openFlags_program : (openFlags s).program = s.program := rfl
@[simp] theorem openFlags_option : (openFlags s).option = s.option := rfl
@[simp] theorem openFlags_env : (openFlags s).env = s.env := rfl
@[simp] theorem openFlags_freeCtr : (openFlags s).freeCtr = s.freeCtr + 1 := rfl

end Sys2Proof.Machine
end

