-- ==== Sys2Proof/Laws/Ops.lean ====
section
/-!
SUPPORT. One lemma per shared operation that says what it can do, and the relation of states that differ only where a data-memory
access can reach.
-/

namespace Sys2Proof.Machine

/-- `t` differs from `s` at most in what instructions without a stack, watchdog or HALT effect can write: ACC, the
special function registers but TBLH, C, AC, Z, OV, `pc`, RAM and the free-value counter. -/
structure SameHidden (s t : State) : Prop where
  stack : t.stack = s.stack
  pd : t.pd = s.pd
  timedOut : t.timedOut = s.timedOut
  tblh : t.tblh = s.tblh
  wdtCnt : t.wdtCnt = s.wdtCnt
  wdtPre : t.wdtPre = s.wdtPre
  cw1 : t.cw1 = s.cw1
  cw2 : t.cw2 = s.cw2
  halted : t.halted = s.halted
  intPad : t.intPad = s.intPad
  tmrPad : t.tmrPad = s.tmrPad
  resPad : t.resPad = s.resPad
  paPads : t.paPads = s.paPads
  pbPads : t.pbPads = s.pbPads
  pcPads : t.pcPads = s.pcPads
  program : t.program = s.program
  option : t.option = s.option
  env : t.env = s.env

theorem SameHidden.rfl' (s : State) : SameHidden s s := by constructor <;> rfl

theorem SameHidden.trans {s t u : State} (h : SameHidden s t) (k : SameHidden t u) : SameHidden s u where
  stack := k.stack.trans h.stack
  pd := k.pd.trans h.pd
  timedOut := k.timedOut.trans h.timedOut
  tblh := k.tblh.trans h.tblh
  wdtCnt := k.wdtCnt.trans h.wdtCnt
  wdtPre := k.wdtPre.trans h.wdtPre
  cw1 := k.cw1.trans h.cw1
  cw2 := k.cw2.trans h.cw2
  halted := k.halted.trans h.halted
  intPad := k.intPad.trans h.intPad
  tmrPad := k.tmrPad.trans h.tmrPad
  resPad := k.resPad.trans h.resPad
  paPads := k.paPads.trans h.paPads
  pbPads := k.pbPads.trans h.pbPads
  pcPads := k.pcPads.trans h.pcPads
  program := k.program.trans h.program
  option := k.option.trans h.option
  env := k.env.trans h.env

/-- The address a RAM location names is in 40H to 7FH (20_memory R104). -/
theorem locate_ram {a b : DataAddr} (h : locate a = .ram b) : b = a ∧ 0x40 ≤ a.toNat := by
  unfold locate at h
  split at h
  · next hb => simp only [Loc.ram.injEq] at h; exact ⟨h.symm, hb⟩
  · split at h <;> simp at h

/-- An access that reaches RAM reaches 40H to 7FH. -/
theorem target_ram {m b : DataAddr} {s : State} (h : target m s = .ram b) : 0x40 ≤ b.toNat := by
  unfold target at h
  split at h
  · obtain ⟨rfl, hb⟩ := locate_ram h; exact hb
  · simp at h

/-- A direct address above 3FH reaches that byte of RAM. -/
theorem target_direct_ram {a : DataAddr} (s : State) (h : 0x40 ≤ a.toNat) : target a s = .ram a := by
  have hne : a ≠ 0 := by rintro rfl; simp at h
  have hr : resolve a s = some a := if_pos hne
  rw [target, hr]
  exact if_pos h

theorem writeLoc_sameHidden (l : Loc) (v : Byte) (s : State) : SameHidden s (writeLoc l v s) := by
  cases l <;> constructor <;> rfl

/-- `MemWrite` reaches none of the hidden state. -/
theorem memWrite_sameHidden (m : DataAddr) (v : Byte) (s : State) : SameHidden s (memWrite m v s) :=
  writeLoc_sameHidden _ _ _

/-- `MemWrite` changes RAM at the byte reached only. -/
theorem memWrite_ram (m : DataAddr) (v : Byte) (s : State) :
    (memWrite m v s).ram = match target m s with
      | .ram a => Memory.write s.ram a.toNat v
      | _ => s.ram := by
  unfold memWrite writeLoc
  split <;> simp_all

/-- The byte written is read back from RAM. -/
theorem ramAt_memWrite_same {m a : DataAddr} (v : Byte) {s : State} (h : target m s = .ram a) :
    ramAt (memWrite m v s) a = v := by
  rw [ramAt, memWrite_ram, h]
  exact read_write_same _ _ _

/-- Every byte of RAM not reached is as before. -/
theorem ramAt_memWrite_other {m a : DataAddr} (v : Byte) {s : State} (h : target m s ≠ .ram a) :
    ramAt (memWrite m v s) a = ramAt s a := by
  rw [ramAt, ramAt, memWrite_ram]
  split
  · next b hb =>
    refine read_write_other _ _ fun e => h ?_
    rw [hb, BitVec.eq_of_toNat_eq e]
  · rfl

/-- `MemWrite` keeps RAM canonical. -/
theorem memWrite_ramWf {m : DataAddr} (v : Byte) {s : State} (h : ramWf s = true) : ramWf (memWrite m v s) = true := by
  unfold ramWf at *
  rw [memWrite_ram]
  split
  · next a ha => exact wf_write _ _ _ h (target_ram ha) a.isLt
  · exact h

/-- A write of TMRC is the only write that touches the measurement, and it keeps it inside mode 11 with TON = 1. -/
theorem memWrite_measuring {m : DataAddr} (v : Byte) {s : State}
    (h : s.pwmRun = true → s.ton = true ∧ s.tm1 = true ∧ s.tm0 = true) :
    (memWrite m v s).pwmRun = true →
      (memWrite m v s).ton = true ∧ (memWrite m v s).tm1 = true ∧ (memWrite m v s).tm0 = true := by
  unfold memWrite writeLoc
  split <;> simp_all

/-- What `toMem` does where the destination is not STATUS. -/
theorem toMem_of_ne {m : DataAddr} {s : State} (h : target m s ≠ .status) (r : Byte) (f : FlagWrite) :
    toMem m r f s = setFlags f (memWrite m r s) := by
  rw [toMem, if_neg h]

/-- What `toMem` does where the destination is STATUS: every arithmetic flag is open, nothing else changes. -/
theorem toMem_of_status {m : DataAddr} {s : State} (h : target m s = .status) (r : Byte) (f : FlagWrite) :
    toMem m r f s = openFlags s := by
  rw [toMem, if_pos h]

theorem setFlags_sameHidden (f : FlagWrite) (s : State) : SameHidden s (setFlags f s) := by constructor <;> rfl

theorem toAcc_sameHidden (r : Byte) (f : FlagWrite) (s : State) : SameHidden s (toAcc r f s) := by
  constructor <;> rfl

theorem toMem_sameHidden (m : DataAddr) (r : Byte) (f : FlagWrite) (s : State) : SameHidden s (toMem m r f s) := by
  unfold toMem
  split
  · constructor <;> rfl
  · exact (memWrite_sameHidden m r s).trans (setFlags_sameHidden _ _)

theorem toMem_ram (m : DataAddr) (r : Byte) (f : FlagWrite) (s : State) :
    (toMem m r f s).ram = (memWrite m r s).ram := by
  unfold toMem
  split
  · next h => simp [memWrite_ram, h]
  · rfl

theorem skipIf_sameHidden (b : Bool) (s : State) : SameHidden s (skipIf b s) := by
  cases b <;> constructor <;> rfl

theorem storeAndSkip_sameHidden (m : DataAddr) (r : Byte) (s : State) : SameHidden s (storeAndSkip m r s) := by
  unfold storeAndSkip
  split
  · constructor <;> rfl
  · exact (memWrite_sameHidden m r s).trans (skipIf_sameHidden _ _)

/-- `pop` answers the last entry, and takes that entry alone. -/
theorem pop_eq_some {s s' : State} {t : ProgAddr} (h : pop s = some (t, s')) :
    s.stack.getLast? = some t ∧ s' = { s with stack := s.stack.dropLast } := by
  unfold pop at h
  split at h
  · next u hu => simp only [Option.some.injEq, Prod.mk.injEq] at h; exact ⟨by rw [hu, h.1], h.2.symm⟩
  · simp at h

/-- What a return does when it answers a next state. -/
theorem returnThen_next {f : State → State} {s t : State} (h : returnThen f s = .next t) :
    ∃ a, s.stack.getLast? = some a ∧ t = f { s with stack := s.stack.dropLast, pc := a } := by
  unfold returnThen at h
  split at h
  · next a s' hp =>
    obtain ⟨ha, rfl⟩ := pop_eq_some hp
    exact ⟨a, ha, by simpa [setPc] using h.symm⟩
  · simp at h

/-- A return completes on every stack that holds an entry. -/
theorem returnThen_concat (f : State → State) {s : State} {rest : List ProgAddr} {a : ProgAddr}
    (h : s.stack = rest ++ [a]) : returnThen f s = .next (f { s with stack := rest, pc := a }) := by
  simp [returnThen, pop, h, setPc]

/-- `push` leaves at most two entries. -/
theorem push_length (t : ProgAddr) (s : State) : (push t s).stack.length ≤ 2 := by
  rw [push_stack]
  split
  · simp; omega
  · simp

theorem timerTick_cases (s : State) :
    (s.tmrCnt = 0xFF ∧ timerTick s = { s with tmrCnt := s.tmrPre, tf := true }) ∨
      (s.tmrCnt ≠ 0xFF ∧ timerTick s = { s with tmrCnt := s.tmrCnt + 1 }) := by
  unfold timerTick
  split
  · next h => exact .inl ⟨h, rfl⟩
  · next h => exact .inr ⟨h, rfl⟩

/-- What an instruction cycle can do to the timer: the count, TF and the free-value counter may change, nothing else. -/
theorem timerClock_frame (s : State) :
    timerClock s =
      { s with tmrCnt := (timerClock s).tmrCnt, tf := (timerClock s).tf, freeCtr := (timerClock s).freeCtr } := by
  unfold timerClock timerTick unusedModeTick
  split
  all_goals (repeat' split) <;> rfl

/-- What a change of the TMR pad can do to the timer. -/
theorem timerEdge_frame (b : Bool) (s : State) :
    timerEdge b s =
      { s with
        tmrCnt := (timerEdge b s).tmrCnt, tf := (timerEdge b s).tf, freeCtr := (timerEdge b s).freeCtr
        pwmRun := (timerEdge b s).pwmRun, ton := (timerEdge b s).ton } := by
  unfold timerEdge timerTick unusedModeTick
  split
  all_goals (repeat' split) <;> rfl

/-- What a watchdog tick can do: count, or reset. -/
theorem wdtTick_cases (s : State) :
    wdtTick s = (wdtTimeout s, true) ∨
      ∃ cnt pre, wdtTick s = ({ s with wdtCnt := cnt, wdtPre := pre }, false) := by
  unfold wdtTick
  split
  · split
    · exact .inl rfl
    · exact .inr ⟨_, _, rfl⟩
  · exact .inr ⟨_, s.wdtPre, rfl⟩

/-- A property the timer's and the watchdog's ticks keep is kept by any number of cycles. -/
theorem runTicks_induction {P : State → Prop} (ht : ∀ s, P s → P (timerClock s)) (hw : ∀ s, P s → P (wdtTick s).1)
    (n : Nat) (s : State) (h : P s) : P (runTicks n s) := by
  induction n generalizing s with
  | zero => exact h
  | succ n ih =>
    have h1 := ht s h
    have h2 := hw _ h1
    unfold runTicks
    simp only
    split
    · split
      · next t e => rw [e] at h2; exact h2
      · next t e => rw [e] at h2; exact ih _ h2
    · exact ih _ h1

/-- The same for the ticks of a CPU step. -/
theorem applyTicks_induction {P : State → Prop} (ht : ∀ s, P s → P (timerClock s)) (hw : ∀ s, P s → P (wdtTick s).1)
    (n : Nat) (s : State) (h : P s) : P (applyTicks n s) := by
  unfold applyTicks
  split
  · exact runTicks_induction ht hw n s h
  · exact h

/-- No reset writes a PROM. -/
theorem applyReset_proms (k : ResetKind) (s : State) :
    (applyReset k s).program = s.program ∧ (applyReset k s).option = s.option := by
  cases k <;> exact ⟨rfl, rfl⟩

/-- No tick writes a PROM. -/
theorem applyTicks_proms (n : Nat) (s : State) :
    (applyTicks n s).program = s.program ∧ (applyTicks n s).option = s.option := by
  refine applyTicks_induction (P := fun t => t.program = s.program ∧ t.option = s.option) (fun t h => ?_) (fun t h => ?_) n s
    ⟨rfl, rfl⟩
  · rw [timerClock_frame]
    exact h
  · rcases wdtTick_cases t with e | ⟨c, p, e⟩ <;> rw [e]
    · exact ⟨(applyReset_proms _ t).1.trans h.1, (applyReset_proms _ t).2.trans h.2⟩
    · exact h

/-- In the state `HALT` leaves a cycle is the timer's tick alone. -/
theorem runTicks_succ_of_halted {s : State} (h : s.halted = true) (n : Nat) :
    runTicks (n + 1) s = runTicks n (timerClock s) := by
  have hk : wdtTakesCycles (timerClock s) = false := by
    rw [timerClock_frame]
    simp [wdtTakesCycles, h]
  simp [runTicks, hk]

/-- What the ticks of HALT's cycle can do: the count, TF and the free-value counter may change, nothing else. -/
theorem applyTicks_frame_of_halted {s : State} (h : s.halted = true) (n : Nat) :
    applyTicks n s =
      { s with
        tmrCnt := (applyTicks n s).tmrCnt, tf := (applyTicks n s).tf, freeCtr := (applyTicks n s).freeCtr } := by
  have hr : ∀ (n : Nat) (s : State), s.halted = true → runTicks n s =
      { s with tmrCnt := (runTicks n s).tmrCnt, tf := (runTicks n s).tf, freeCtr := (runTicks n s).freeCtr } := by
    intro n
    induction n with
    | zero => intro s _; rfl
    | succ n ih =>
      intro s hs
      have hc : (timerClock s).halted = true := by
        rw [timerClock_frame]
        exact hs
      rw [runTicks_succ_of_halted hs, ih _ hc, timerClock_frame]
  unfold applyTicks
  split
  · exact hr n s h
  · rfl

/-- Where nothing counts instruction cycles, a CPU step's ticks do nothing. -/
theorem applyTicks_of_not_clocked {s : State} (h : clocked s = false) (n : Nat) : applyTicks n s = s := by
  simp [applyTicks, h]

/-- What the CPU's step can do when it answers a next state. -/
theorem cpuStep_next {enc : Enc} {s t : State} (h : cpuStep enc s = .next t) :
    optionWellFormed s.option = true ∧
      ((s.halted || !s.resPad) = true ∧ t = s ∨
       (s.halted || !s.resPad) = false ∧
        ((∃ src, pendingInterrupt s = some src ∧ t = applyTicks Config.intAckCycles (acknowledge src s)) ∨
         (∃ i u, pendingInterrupt s = none ∧ enc s.option (fetch s) = .instr i ∧ exec i (advance s) = .next u ∧
            t = applyTicks (cycles i (advance s)) u))) := by
  unfold cpuStep at h
  split at h
  · next ho =>
    refine ⟨ho, ?_⟩
    split at h
    · next hh => exact .inl ⟨hh, by simpa using h.symm⟩
    · next hh =>
      refine .inr ⟨by simpa using hh, ?_⟩
      split at h
      · next src hp => exact .inl ⟨src, hp, by simpa using h.symm⟩
      · next hp =>
        unfold runInstruction at h
        split at h
        · simp at h
        · next i hd =>
          split at h
          · next u hu => exact .inr ⟨i, u, hp, hd, hu, by simpa using h.symm⟩
          · simp at h
          · simp at h
  · simp at h

/-- A move of the environment always answers a next state. -/
theorem move_environment (enc : Enc) {e : Event} (h : e ≠ .cpu) (s : State) : move enc e s = .next (envStep e s) := by
  cases e <;> first | rfl | exact absurd rfl h

/-- What a step can do when it answers a next state, under any encoding: a move of the environment, or the CPU's step. -/
theorem nextMove_next {enc : Enc} {s t : State} (h : nextMove enc s = .next t) :
    (∃ e rest, s.env = e :: rest ∧ e ≠ .cpu ∧ t = envStep e { s with env := rest }) ∨
      (∃ u, (u = s ∧ s.env = [] ∨ ∃ rest, s.env = .cpu :: rest ∧ u = { s with env := rest }) ∧
        cpuStep enc u = .next t) := by
  unfold nextMove at h
  split at h
  · next he => exact .inr ⟨s, .inl ⟨rfl, he⟩, h⟩
  · next e rest he =>
    by_cases hc : e = .cpu
    · subst hc
      exact .inr ⟨_, .inr ⟨rest, he, rfl⟩, h⟩
    · rw [move_environment enc hc] at h
      exact .inl ⟨e, rest, he, hc, by simpa using h.symm⟩

/-- The same of the machine's step. -/
theorem step_next {s t : State} (h : step s = .next t) :
    (∃ e rest, s.env = e :: rest ∧ e ≠ .cpu ∧ t = envStep e { s with env := rest }) ∨
      (∃ u, (u = s ∧ s.env = [] ∨ ∃ rest, s.env = .cpu :: rest ∧ u = { s with env := rest }) ∧
        cpuStep decode u = .next t) :=
  nextMove_next h

/-- One move more of a run that has not stopped. -/
theorem runUnder_succ {enc : Enc} {sched : Schedule} {n : Nat} {s t : State} (h : runUnder enc sched n s = .next t) :
    runUnder enc sched (n + 1) s = move enc (sched n) t := by
  rw [runUnder, h]

/-- A run that stands after `n + 1` moves stood after `n`. -/
theorem runUnder_next {enc : Enc} {sched : Schedule} {n : Nat} {s u : State}
    (h : runUnder enc sched (n + 1) s = .next u) :
    ∃ t, runUnder enc sched n s = .next t ∧ move enc (sched n) t = .next u := by
  unfold runUnder at h
  split at h
  · next t e => exact ⟨t, e, h⟩
  · simp at h
  · simp at h

/-- A property that every move keeps holds all along a run. -/
theorem runUnder_induction {enc : Enc} {sched : Schedule} {P : State → Prop}
    (hm : ∀ n t u, P t → move enc (sched n) t = .next u → P u) (n : Nat) {s t : State} (hs : P s)
    (h : runUnder enc sched n s = .next t) : P t := by
  induction n generalizing t with
  | zero =>
    simp only [runUnder, Host.Outcome.next.injEq] at h
    exact h ▸ hs
  | succ n ih =>
    obtain ⟨u, hu, hm'⟩ := runUnder_next h
    exact hm n u t (ih hu) hm'

end Sys2Proof.Machine
end

