-- ==== Sys2Proof/Laws/PerInstr.lean ====
section
/-!
SUPPORT. Family EncodesRow, one lemma per constructor: an encoded word carries the fixed bits of its row of spec/opcode_table.json.
-/

namespace Sys2Proof.Laws

/-- The row's "mask" and "match" columns (30_encoding R151). -/
def rowOf : Instr → ProgWord × ProgWord
  | .addAM _ => (0x3F80#14, 0x0300#14)
  | .addmAM _ => (0x3F80#14, 0x0380#14)
  | .addAX _ => (0x3F00#14, 0x0B00#14)
  | .adcAM _ => (0x3F80#14, 0x1300#14)
  | .adcmAM _ => (0x3F80#14, 0x1380#14)
  | .subAX _ => (0x3F00#14, 0x0A00#14)
  | .subAM _ => (0x3F80#14, 0x0200#14)
  | .submAM _ => (0x3F80#14, 0x0280#14)
  | .sbcAM _ => (0x3F80#14, 0x1200#14)
  | .sbcmAM _ => (0x3F80#14, 0x1280#14)
  | .daaM _ => (0x3F80#14, 0x1E80#14)
  | .andAM _ => (0x3F80#14, 0x0600#14)
  | .orAM _ => (0x3F80#14, 0x0500#14)
  | .xorAM _ => (0x3F80#14, 0x0400#14)
  | .andmAM _ => (0x3F80#14, 0x0680#14)
  | .ormAM _ => (0x3F80#14, 0x0580#14)
  | .xormAM _ => (0x3F80#14, 0x0480#14)
  | .andAX _ => (0x3F00#14, 0x0E00#14)
  | .orAX _ => (0x3F00#14, 0x0D00#14)
  | .xorAX _ => (0x3F00#14, 0x0C00#14)
  | .cplM _ => (0x3F80#14, 0x0180#14)
  | .cplaM _ => (0x3F80#14, 0x0100#14)
  | .incaM _ => (0x3F80#14, 0x1400#14)
  | .incM _ => (0x3F80#14, 0x1480#14)
  | .decaM _ => (0x3F80#14, 0x1500#14)
  | .decM _ => (0x3F80#14, 0x1580#14)
  | .rraM _ => (0x3F80#14, 0x1900#14)
  | .rrM _ => (0x3F80#14, 0x1980#14)
  | .rrcaM _ => (0x3F80#14, 0x1B00#14)
  | .rrcM _ => (0x3F80#14, 0x1B80#14)
  | .rlaM _ => (0x3F80#14, 0x1800#14)
  | .rlM _ => (0x3F80#14, 0x1880#14)
  | .rlcaM _ => (0x3F80#14, 0x1A00#14)
  | .rlcM _ => (0x3F80#14, 0x1A80#14)
  | .movAM _ => (0x3F80#14, 0x0700#14)
  | .movMA _ => (0x3F80#14, 0x0080#14)
  | .movAX _ => (0x3F00#14, 0x0F00#14)
  | .clrMI _ _ => (0x3C00#14, 0x3400#14)
  | .setMI _ _ => (0x3C00#14, 0x3000#14)
  | .jmp _ => (0x3C00#14, 0x2800#14)
  | .szM _ => (0x3F80#14, 0x1080#14)
  | .szaM _ => (0x3F80#14, 0x1000#14)
  | .szMI _ _ => (0x3C00#14, 0x3C00#14)
  | .snzMI _ _ => (0x3C00#14, 0x3800#14)
  | .sizM _ => (0x3F80#14, 0x1680#14)
  | .sdzM _ => (0x3F80#14, 0x1780#14)
  | .sizaM _ => (0x3F80#14, 0x1600#14)
  | .sdzaM _ => (0x3F80#14, 0x1700#14)
  | .call _ => (0x3C00#14, 0x2000#14)
  | .ret => (0x3FFF#14, 0x0003#14)
  | .retAX _ => (0x3F00#14, 0x0900#14)
  | .reti => (0x3FFF#14, 0x0004#14)
  | .tabrdcM _ => (0x3F80#14, 0x1D00#14)
  | .tabrdlM _ => (0x3F80#14, 0x1D80#14)
  | .nop => (0x3FFF#14, 0x0000#14)
  | .clrM _ => (0x3F80#14, 0x1F00#14)
  | .setM _ => (0x3F80#14, 0x1F80#14)
  | .clrWdt => (0x3FFF#14, 0x0001#14)
  | .clrWdt1 => (0x3FFF#14, 0x0001#14)
  | .clrWdt2 => (0x3FFF#14, 0x0005#14)
  | .swapM _ => (0x3F80#14, 0x1180#14)
  | .swapaM _ => (0x3F80#14, 0x1100#14)
  | .halt => (0x3FFF#14, 0x0002#14)

/-- The word encoded under the row's mask is the row's match value (30_encoding R151). -/
def EncodesRow.Statement (i : Instr) : Prop := encode i &&& (rowOf i).1 = (rowOf i).2

theorem or_and_right' (a b c : ProgWord) : (a ||| b) &&& c = (a &&& c) ||| (b &&& c) := by
  ext k
  simp [Bool.and_or_distrib_right]

/-- Format M: a 7-bit field stays below bit 7. -/
theorem wordM_masked (row : ProgWord) (h : row &&& 0x3F80#14 = row) (m : DataAddr) :
    wordM row m &&& 0x3F80#14 = row := by
  have hm : ∀ m : DataAddr, m.setWidth 14 &&& 0x3F80#14 = 0#14 := by decide
  rw [wordM, or_and_right', h, hm, BitVec.or_zero]

/-- Format X: an 8-bit field stays below bit 8. -/
theorem wordX_masked (row : ProgWord) (h : row &&& 0x3F00#14 = row) (x : Byte) :
    wordX row x &&& 0x3F00#14 = row := by
  have hx : ∀ x : Byte, x.setWidth 14 &&& 0x3F00#14 = 0#14 := by decide
  rw [wordX, or_and_right', h, hx, BitVec.or_zero]

/-- Format B: a bit number and a data address stay below bit 10. -/
theorem wordB_masked (row : ProgWord) (h : row &&& 0x3C00#14 = row) (m : DataAddr) (i : BitVec 3) :
    wordB row m i &&& 0x3C00#14 = row := by
  have hm : ∀ m : DataAddr, m.setWidth 14 &&& 0x3C00#14 = 0#14 := by decide
  have hi : ∀ i : BitVec 3, (i.setWidth 14 <<< 7) &&& 0x3C00#14 = 0#14 := by decide
  rw [wordB, or_and_right', or_and_right', h, hm, hi, BitVec.or_zero, BitVec.or_zero]

/-- Format A: a 10-bit field stays below bit 10. -/
theorem wordA_masked (row : ProgWord) (h : row &&& 0x3C00#14 = row) (addr : ProgAddr) :
    wordA row addr &&& 0x3C00#14 = row := by
  have ha : addr.setWidth 14 &&& 0x3C00#14 = 0#14 := by
    apply BitVec.eq_of_getLsbD_eq
    intro k hk
    by_cases h10 : k < 10
    · have : (0x3C00#14).getLsbD k = false := by
        have : ∀ j : Fin 10, (0x3C00#14).getLsbD j.1 = false := by decide
        exact this ⟨k, h10⟩
      simp [this]
    · simp [BitVec.getLsbD_of_ge addr k (by omega)]
  rw [wordA, or_and_right', h, ha, BitVec.or_zero]

theorem EncodesRow.addAM (m : DataAddr) : EncodesRow.Statement (.addAM m) := wordM_masked _ (by decide) m
theorem EncodesRow.addmAM (m : DataAddr) : EncodesRow.Statement (.addmAM m) := wordM_masked _ (by decide) m
theorem EncodesRow.addAX (x : Byte) : EncodesRow.Statement (.addAX x) := wordX_masked _ (by decide) x
theorem EncodesRow.adcAM (m : DataAddr) : EncodesRow.Statement (.adcAM m) := wordM_masked _ (by decide) m
theorem EncodesRow.adcmAM (m : DataAddr) : EncodesRow.Statement (.adcmAM m) := wordM_masked _ (by decide) m
theorem EncodesRow.subAX (x : Byte) : EncodesRow.Statement (.subAX x) := wordX_masked _ (by decide) x
theorem EncodesRow.subAM (m : DataAddr) : EncodesRow.Statement (.subAM m) := wordM_masked _ (by decide) m
theorem EncodesRow.submAM (m : DataAddr) : EncodesRow.Statement (.submAM m) := wordM_masked _ (by decide) m
theorem EncodesRow.sbcAM (m : DataAddr) : EncodesRow.Statement (.sbcAM m) := wordM_masked _ (by decide) m
theorem EncodesRow.sbcmAM (m : DataAddr) : EncodesRow.Statement (.sbcmAM m) := wordM_masked _ (by decide) m
theorem EncodesRow.daaM (m : DataAddr) : EncodesRow.Statement (.daaM m) := wordM_masked _ (by decide) m
theorem EncodesRow.andAM (m : DataAddr) : EncodesRow.Statement (.andAM m) := wordM_masked _ (by decide) m
theorem EncodesRow.orAM (m : DataAddr) : EncodesRow.Statement (.orAM m) := wordM_masked _ (by decide) m
theorem EncodesRow.xorAM (m : DataAddr) : EncodesRow.Statement (.xorAM m) := wordM_masked _ (by decide) m
theorem EncodesRow.andmAM (m : DataAddr) : EncodesRow.Statement (.andmAM m) := wordM_masked _ (by decide) m
theorem EncodesRow.ormAM (m : DataAddr) : EncodesRow.Statement (.ormAM m) := wordM_masked _ (by decide) m
theorem EncodesRow.xormAM (m : DataAddr) : EncodesRow.Statement (.xormAM m) := wordM_masked _ (by decide) m
theorem EncodesRow.andAX (x : Byte) : EncodesRow.Statement (.andAX x) := wordX_masked _ (by decide) x
theorem EncodesRow.orAX (x : Byte) : EncodesRow.Statement (.orAX x) := wordX_masked _ (by decide) x
theorem EncodesRow.xorAX (x : Byte) : EncodesRow.Statement (.xorAX x) := wordX_masked _ (by decide) x
theorem EncodesRow.cplM (m : DataAddr) : EncodesRow.Statement (.cplM m) := wordM_masked _ (by decide) m
theorem EncodesRow.cplaM (m : DataAddr) : EncodesRow.Statement (.cplaM m) := wordM_masked _ (by decide) m
theorem EncodesRow.incaM (m : DataAddr) : EncodesRow.Statement (.incaM m) := wordM_masked _ (by decide) m
theorem EncodesRow.incM (m : DataAddr) : EncodesRow.Statement (.incM m) := wordM_masked _ (by decide) m
theorem EncodesRow.decaM (m : DataAddr) : EncodesRow.Statement (.decaM m) := wordM_masked _ (by decide) m
theorem EncodesRow.decM (m : DataAddr) : EncodesRow.Statement (.decM m) := wordM_masked _ (by decide) m
theorem EncodesRow.rraM (m : DataAddr) : EncodesRow.Statement (.rraM m) := wordM_masked _ (by decide) m
theorem EncodesRow.rrM (m : DataAddr) : EncodesRow.Statement (.rrM m) := wordM_masked _ (by decide) m
theorem EncodesRow.rrcaM (m : DataAddr) : EncodesRow.Statement (.rrcaM m) := wordM_masked _ (by decide) m
theorem EncodesRow.rrcM (m : DataAddr) : EncodesRow.Statement (.rrcM m) := wordM_masked _ (by decide) m
theorem EncodesRow.rlaM (m : DataAddr) : EncodesRow.Statement (.rlaM m) := wordM_masked _ (by decide) m
theorem EncodesRow.rlM (m : DataAddr) : EncodesRow.Statement (.rlM m) := wordM_masked _ (by decide) m
theorem EncodesRow.rlcaM (m : DataAddr) : EncodesRow.Statement (.rlcaM m) := wordM_masked _ (by decide) m
theorem EncodesRow.rlcM (m : DataAddr) : EncodesRow.Statement (.rlcM m) := wordM_masked _ (by decide) m
theorem EncodesRow.movAM (m : DataAddr) : EncodesRow.Statement (.movAM m) := wordM_masked _ (by decide) m
theorem EncodesRow.movMA (m : DataAddr) : EncodesRow.Statement (.movMA m) := wordM_masked _ (by decide) m
theorem EncodesRow.movAX (x : Byte) : EncodesRow.Statement (.movAX x) := wordX_masked _ (by decide) x
theorem EncodesRow.clrMI (m : DataAddr) (i : BitVec 3) : EncodesRow.Statement (.clrMI m i) := wordB_masked _ (by decide) m i
theorem EncodesRow.setMI (m : DataAddr) (i : BitVec 3) : EncodesRow.Statement (.setMI m i) := wordB_masked _ (by decide) m i
theorem EncodesRow.jmp (addr : ProgAddr) : EncodesRow.Statement (.jmp addr) := wordA_masked _ (by decide) addr
theorem EncodesRow.szM (m : DataAddr) : EncodesRow.Statement (.szM m) := wordM_masked _ (by decide) m
theorem EncodesRow.szaM (m : DataAddr) : EncodesRow.Statement (.szaM m) := wordM_masked _ (by decide) m
theorem EncodesRow.szMI (m : DataAddr) (i : BitVec 3) : EncodesRow.Statement (.szMI m i) := wordB_masked _ (by decide) m i
theorem EncodesRow.snzMI (m : DataAddr) (i : BitVec 3) : EncodesRow.Statement (.snzMI m i) := wordB_masked _ (by decide) m i
theorem EncodesRow.sizM (m : DataAddr) : EncodesRow.Statement (.sizM m) := wordM_masked _ (by decide) m
theorem EncodesRow.sdzM (m : DataAddr) : EncodesRow.Statement (.sdzM m) := wordM_masked _ (by decide) m
theorem EncodesRow.sizaM (m : DataAddr) : EncodesRow.Statement (.sizaM m) := wordM_masked _ (by decide) m
theorem EncodesRow.sdzaM (m : DataAddr) : EncodesRow.Statement (.sdzaM m) := wordM_masked _ (by decide) m
theorem EncodesRow.call (addr : ProgAddr) : EncodesRow.Statement (.call addr) := wordA_masked _ (by decide) addr
theorem EncodesRow.ret : EncodesRow.Statement (.ret) := rfl
theorem EncodesRow.retAX (x : Byte) : EncodesRow.Statement (.retAX x) := wordX_masked _ (by decide) x
theorem EncodesRow.reti : EncodesRow.Statement (.reti) := rfl
theorem EncodesRow.tabrdcM (m : DataAddr) : EncodesRow.Statement (.tabrdcM m) := wordM_masked _ (by decide) m
theorem EncodesRow.tabrdlM (m : DataAddr) : EncodesRow.Statement (.tabrdlM m) := wordM_masked _ (by decide) m
theorem EncodesRow.nop : EncodesRow.Statement (.nop) := rfl
theorem EncodesRow.clrM (m : DataAddr) : EncodesRow.Statement (.clrM m) := wordM_masked _ (by decide) m
theorem EncodesRow.setM (m : DataAddr) : EncodesRow.Statement (.setM m) := wordM_masked _ (by decide) m
theorem EncodesRow.clrWdt : EncodesRow.Statement (.clrWdt) := rfl
theorem EncodesRow.clrWdt1 : EncodesRow.Statement (.clrWdt1) := rfl
theorem EncodesRow.clrWdt2 : EncodesRow.Statement (.clrWdt2) := rfl
theorem EncodesRow.swapM (m : DataAddr) : EncodesRow.Statement (.swapM m) := wordM_masked _ (by decide) m
theorem EncodesRow.swapaM (m : DataAddr) : EncodesRow.Statement (.swapaM m) := wordM_masked _ (by decide) m
theorem EncodesRow.halt : EncodesRow.Statement (.halt) := rfl

end Sys2Proof.Laws
end

