-- ==== Sys2Proof/Machine/Prom.lean ====
section
/-!
DEFINITION. The PROM programming and verification interface as far as the text describes it (70_reset R550 to R555). It is the host's before
the chip runs and no agent of a run (60_exceptions R453), so no step calls it (log 24). The pulse shapes, six of the nine
steps and the order of the phases are lost (N10): what the text leaves open and this file settles is log 30 and log 31.
-/

namespace Sys2Proof.Machine

/-- What the four CLK cycles of an address phase latch (R551). -/
structure PromAddress where
  addr : ProgAddr
  tsel : Bool
  osel : Bool
  deriving DecidableEq, Repr

/-- The memories TSEL and OSEL select (R552). -/
inductive PromMemory where
  /-- TSEL = 0, OSEL = 0. -/
  | program
  /-- TSEL = 0, OSEL = 1. -/
  | option
  /-- TSEL = 1, OSEL = 0; never described (N13). -/
  | test
  deriving DecidableEq, Repr

/-- The address phase: nibbles AD3..AD0 of the four CLK cycles, the least significant first; the undefined bits are not looked at (R551). -/
def promLatchAddress (n1 n2 n3 n4 : BitVec 4) : PromAddress :=
  { addr := n3.extractLsb' 0 2 ++ n2 ++ n1, tsel := n4.getLsbD 2, osel := n4.getLsbD 3 }

/-- The memory selected; TSEL = OSEL = 1 is not described (R552, U13). -/
def promSelect (a : PromAddress) : Option PromMemory :=
  match a.tsel, a.osel with
  | false, false => some .program
  | false, true => some .option
  | true, false => some .test
  | true, true => none

/-- The word a data phase writes: four nibbles, the least significant first; bits 15:14 are not looked at (R553). -/
def promDataWord (n1 n2 n3 n4 : BitVec 4) : ProgWord := n4.extractLsb' 0 2 ++ n3 ++ n2 ++ n1

/-- The four nibbles a verification reads; bits 15:14 read 0 (R553). -/
def promDataNibbles (w : ProgWord) : List (BitVec 4) :=
  [w.extractLsb' 0 4, w.extractLsb' 4 4, w.extractLsb' 8 4, 0#2 ++ w.extractLsb' 12 2]

/-- Programming one word (R550, R552); none where the text gives no effect. The option word answers at every address: R552
says that its address is not stated. DESIGN CHOICE, log 30. -/
def promWrite (a : PromAddress) (w : ProgWord) (s : State) : Option State :=
  match promSelect a with
  | some .program => some { s with program := Memory.write s.program a.addr.toNat w }
  | some .option => some { s with option := w }
  | some .test => none
  | none => none

/-- Verifying one word: with LOCK = 1 every bit of the code reads 1 (R555, log 24). The option word answers at every address: R552
says that its address is not stated. DESIGN CHOICE, log 30. -/
def promVerify (lock : Bool) (a : PromAddress) (s : State) : Option ProgWord :=
  match promSelect a with
  | some .program => some (if lock then 0x3FFF else progRead a.addr s)
  | some .option => some (if lock then 0x3FFF else s.option)
  | some .test => none
  | none => none

/-- The address after a verification cycle that goes on (R554). After 3FFH comes 000H, of which R554 says nothing: DESIGN CHOICE,
log 30. -/
def promNextAddress (a : PromAddress) : PromAddress := { a with addr := a.addr + 1 }

/-- The lines the programmer drives (the pin table of R550). -/
structure PromPins where
  /-- VPP(RES) is at 12.5 V. -/
  vpp : Bool
  /-- CS(PA5), active low. -/
  cs : Bool
  /-- CLK(PA4). -/
  clk : Bool
  /-- R/W(PA6): 1 selects verification, 0 programming (log 31). -/
  rw : Bool
  /-- AD3..AD0 (PA3..PA0), as the programmer drives them. -/
  ad : BitVec 4
  deriving DecidableEq, Repr

/-- How far the programming or verification cycle has come. A list of nibbles has the earliest first. -/
inductive PromPhase where
  /-- No cycle: CS is high, or VPP is not applied (log 31). -/
  | idle
  /-- The address phase (R551), with the nibbles latched so far. -/
  | address (got : List (BitVec 4))
  /-- The address `a` stands and no data has been clocked for it. -/
  | ready (a : PromAddress)
  /-- A data phase that programs `a` (R553), with the nibbles latched so far. -/
  | programming (a : PromAddress) (got : List (BitVec 4))
  /-- A data phase that verifies `a` (R553), with the nibbles still to be read. -/
  | verifying (a : PromAddress) (left : List (Option (BitVec 4)))
  /-- `a` has been verified. The increment comes with a cycle that goes on; CS high ends the cycle without it (R554). -/
  | verified (a : PromAddress)
  deriving DecidableEq, Repr

/-- The interface between two changes of its lines. -/
structure PromPort where
  /-- CLK's level at the last change. -/
  clk : Bool
  phase : PromPhase
  deriving DecidableEq, Repr

/-- The interface with no cycle in progress. -/
def PromPort.rest : PromPort := { clk := false, phase := .idle }

/-- The nibbles a verification of `a` reads, least significant first; `none` where the text gives no value (R552, R553). -/
def promReadNibbles (lock : Bool) (a : PromAddress) (s : State) : List (Option (BitVec 4)) :=
  match promVerify lock a s with
  | some w => (promDataNibbles w).map some
  | none => [none, none, none, none]

/-- A nibble of the address phase; the fourth completes it (R551). -/
def promClockAddress (got : List (BitVec 4)) (ad : BitVec 4) : PromPhase :=
  match got with
  | [n1, n2, n3] => .ready (promLatchAddress n1 n2 n3 ad)
  | _ => .address (got ++ [ad])

/-- A nibble of the data phase that programs `a`; with the fourth the word is programmed (R553, log 31). -/
def promClockProgram (a : PromAddress) (got : List (BitVec 4)) (ad : BitVec 4) (s : State) : PromPhase × State :=
  match got with
  | [n1, n2, n3] => (.ready a, (promWrite a (promDataWord n1 n2 n3 ad) s).getD s)
  | _ => (.programming a (got ++ [ad]), s)

/-- A nibble of the data phase that verifies `a`: what AD3..AD0 show, and the phase after (R553, R554). -/
def promClockVerify (a : PromAddress) (left : List (Option (BitVec 4))) : PromPhase × Option (BitVec 4) :=
  match left with
  | [] => (.verified a, none)
  | [n] => (.verified a, n)
  | n :: more => (.verifying a more, n)

/-- The first nibble of a data phase at `a`: R/W selects programming or verification (R550, log 31). -/
def promClockFirst (lock : Bool) (a : PromAddress) (p : PromPins) (s : State) : PromPhase × State × Option (BitVec 4) :=
  if p.rw then
    let v := promClockVerify a (promReadNibbles lock a s)
    (v.1, s, v.2)
  else (.programming a [p.ad], s, none)

/-- A falling edge of CLK (R550): one nibble into or out of the chip. After a verification the next data phase is that of the
following address (R554); after programming it is that of the same address, so that the word can be verified. -/
def promClock (lock : Bool) (ph : PromPhase) (p : PromPins) (s : State) : PromPhase × State × Option (BitVec 4) :=
  match ph with
  | .idle => (.idle, s, none)
  | .address got => (promClockAddress got p.ad, s, none)
  | .ready a => promClockFirst lock a p s
  | .programming a got =>
    let w := promClockProgram a got p.ad s
    (w.1, w.2, none)
  | .verifying a left =>
    let v := promClockVerify a left
    (v.1, s, v.2)
  | .verified a => promClockFirst lock (promNextAddress a) p s

/-- A change of the lines (R550, R554): with CS high there is no cycle, whatever was in progress is dropped and no address is
incremented; CS going low starts a cycle with its address phase; then each falling edge of CLK clocks a nibble. The
part VPP has in it is DESIGN CHOICE, log 31 (the text names VPP as a programming step, its timing is lost, N10): a
verification needs it as programming does, a cycle ends when it goes away, and one starts when it comes with CS
already low. The last part of the answer is what AD3..AD0 show. -/
def promDrive (lock : Bool) (p : PromPins) (q : PromPort) (s : State) : PromPort × State × Option (BitVec 4) :=
  if p.cs || !p.vpp then ({ clk := p.clk, phase := .idle }, s, none)
  else if q.phase = .idle then ({ clk := p.clk, phase := .address [] }, s, none)
  else if q.clk && !p.clk then
    let t := promClock lock q.phase p s
    ({ clk := p.clk, phase := t.1 }, t.2)
  else ({ clk := p.clk, phase := q.phase }, s, none)

/-- What the programmer does to the chip before it runs, one change of the lines after another (60_exceptions R453): the
interface and the chip after it, and the nibbles shown on the way. -/
def promSession (lock : Bool) : List PromPins → PromPort → State → PromPort × State × List (BitVec 4)
  | [], q, s => (q, s, [])
  | p :: rest, q, s =>
    let t := promDrive lock p q s
    let u := promSession lock rest t.1 t.2.1
    (u.1, u.2.1, t.2.2.toList ++ u.2.2)

end Sys2Proof.Machine
end

