-- ==== Sys2Proof/Laws/Prom.lean ====
section
/-!
SUPPORT. What the PROM programming interface can do to the chip: replace words of the two PROMs, and nothing else.
-/

namespace Sys2Proof.Machine

/-- `t` is `s` but for the two PROMs, and PROGRAM is canonical if it was. -/
def PromsOnly (s t : State) : Prop :=
  t = { s with program := t.program, option := t.option } ∧ (programWf s = true → programWf t = true)

theorem PromsOnly.refl (s : State) : PromsOnly s s := ⟨rfl, id⟩

theorem PromsOnly.trans {s t u : State} (h : PromsOnly s t) (k : PromsOnly t u) : PromsOnly s u :=
  ⟨by rw [k.1, h.1], k.2 ∘ h.2⟩

/-- Programming a word changes the PROM selected. -/
theorem promWrite_promsOnly {a : PromAddress} {w : ProgWord} {s t : State} (h : promWrite a w s = some t) :
    PromsOnly s t := by
  unfold promWrite at h
  split at h
  · obtain rfl := Option.some.inj h
    exact ⟨rfl, fun hw => wf_write _ _ _ hw (Nat.zero_le _) a.addr.isLt⟩
  · obtain rfl := Option.some.inj h
    exact ⟨rfl, id⟩
  · simp at h
  · simp at h

theorem promClockProgram_promsOnly (a : PromAddress) (got : List (BitVec 4)) (ad : BitVec 4) (s : State) :
    PromsOnly s (promClockProgram a got ad s).2 := by
  unfold promClockProgram
  split
  · next n1 n2 n3 =>
    cases h : promWrite a (promDataWord n1 n2 n3 ad) s with
    | none => exact PromsOnly.refl s
    | some t => exact promWrite_promsOnly h
  · exact PromsOnly.refl s

theorem promClockFirst_state (lock : Bool) (a : PromAddress) (p : PromPins) (s : State) :
    (promClockFirst lock a p s).2.1 = s := by
  unfold promClockFirst
  split <;> rfl

/-- A falling edge of CLK reaches the chip through a programmed word alone. -/
theorem promClock_promsOnly (lock : Bool) (ph : PromPhase) (p : PromPins) (s : State) :
    PromsOnly s (promClock lock ph p s).2.1 := by
  cases ph with
  | idle => exact PromsOnly.refl s
  | address got => exact PromsOnly.refl s
  | ready a =>
    rw [promClock, promClockFirst_state]
    exact PromsOnly.refl s
  | programming a got => exact promClockProgram_promsOnly a got p.ad s
  | verifying a left => exact PromsOnly.refl s
  | verified a =>
    rw [promClock, promClockFirst_state]
    exact PromsOnly.refl s

theorem promDrive_promsOnly (lock : Bool) (p : PromPins) (q : PromPort) (s : State) :
    PromsOnly s (promDrive lock p q s).2.1 := by
  unfold promDrive
  split
  · exact PromsOnly.refl s
  · split
    · exact PromsOnly.refl s
    · split
      · exact promClock_promsOnly lock q.phase p s
      · exact PromsOnly.refl s

/-- CS high (R554), or VPP away (log 31), ends the cycle: the address is dropped, nothing is written and nothing is shown. -/
theorem promDrive_deselected {lock : Bool} {p : PromPins} (h : (p.cs || !p.vpp) = true) (q : PromPort) (s : State) :
    promDrive lock p q s = ({ clk := p.clk, phase := .idle }, s, none) := if_pos h

/-- Whatever the programmer does, only the PROMs change, and PROGRAM stays canonical. -/
theorem promSession_promsOnly (lock : Bool) (ps : List PromPins) (q : PromPort) (s : State) :
    PromsOnly s (promSession lock ps q s).2.1 := by
  induction ps generalizing q s with
  | nil => exact PromsOnly.refl s
  | cons p ps ih => exact (promDrive_promsOnly lock p q s).trans (ih _ _)

end Sys2Proof.Machine
end

