-- ==== Sys2Proof/Tests/Slice0.lean ====
section
/-!
SUPPORT. Tests: the WellFormed smoke tests, a word of every constructor written out from its encoding clause (40_arithmetic to 48_misc),
one-step vectors of 95_test_vectors (its section is named in each heading), and a witness for every statement with hypotheses.
-/

namespace Sys2Proof.Tests

open Sys2Proof.Machine Sys2Proof.Claims

/-! ## Ill-formed terms (30_encoding R156, 10_state R75) -/

theorem test_clrWdt_ill_formed_without_op9 : Instr.wellFormed 0x2000 .clrWdt = false := by decide
theorem test_clrWdt1_ill_formed_with_op9 : Instr.wellFormed 0x2200 .clrWdt1 = false := by decide
theorem test_clrWdt2_well_formed : Instr.wellFormed 0x2200 .clrWdt2 = true ∧ Instr.wellFormed 0x2000 .clrWdt2 = true := by
  decide
theorem test_option_op10_ill_formed : optionWellFormed 0x2600 = false := by decide
theorem test_option_op11_ill_formed : optionWellFormed 0x2A00 = false := by decide

/-! ## Decoding: m = 56H, x = A6H, i = 5, addr = 2C5H in the fields of each encoding clause; section 13 for the rest -/

theorem test_decode_arithmetic :
    decode 0x2200 0b00_0011_0101_0110 = .instr (.addAM 0x56) ∧
    decode 0x2200 0b00_0011_1101_0110 = .instr (.addmAM 0x56) ∧
    decode 0x2200 0b00_1011_1010_0110 = .instr (.addAX 0xA6) ∧
    decode 0x2200 0b01_0011_0101_0110 = .instr (.adcAM 0x56) ∧
    decode 0x2200 0b01_0011_1101_0110 = .instr (.adcmAM 0x56) ∧
    decode 0x2200 0b00_1010_1010_0110 = .instr (.subAX 0xA6) ∧
    decode 0x2200 0b00_0010_0101_0110 = .instr (.subAM 0x56) ∧
    decode 0x2200 0b00_0010_1101_0110 = .instr (.submAM 0x56) ∧
    decode 0x2200 0b01_0010_0101_0110 = .instr (.sbcAM 0x56) ∧
    decode 0x2200 0b01_0010_1101_0110 = .instr (.sbcmAM 0x56) ∧
    decode 0x2200 0b01_1110_1101_0110 = .instr (.daaM 0x56) := by decide

theorem test_decode_logic :
    decode 0x2200 0b00_0110_0101_0110 = .instr (.andAM 0x56) ∧
    decode 0x2200 0b00_0101_0101_0110 = .instr (.orAM 0x56) ∧
    decode 0x2200 0b00_0100_0101_0110 = .instr (.xorAM 0x56) ∧
    decode 0x2200 0b00_0110_1101_0110 = .instr (.andmAM 0x56) ∧
    decode 0x2200 0b00_0101_1101_0110 = .instr (.ormAM 0x56) ∧
    decode 0x2200 0b00_0100_1101_0110 = .instr (.xormAM 0x56) ∧
    decode 0x2200 0b00_1110_1010_0110 = .instr (.andAX 0xA6) ∧
    decode 0x2200 0b00_1101_1010_0110 = .instr (.orAX 0xA6) ∧
    decode 0x2200 0b00_1100_1010_0110 = .instr (.xorAX 0xA6) ∧
    decode 0x2200 0b00_0001_1101_0110 = .instr (.cplM 0x56) ∧
    decode 0x2200 0b00_0001_0101_0110 = .instr (.cplaM 0x56) := by decide

theorem test_decode_count :
    decode 0x2200 0b01_0100_0101_0110 = .instr (.incaM 0x56) ∧
    decode 0x2200 0b01_0100_1101_0110 = .instr (.incM 0x56) ∧
    decode 0x2200 0b01_0101_0101_0110 = .instr (.decaM 0x56) ∧
    decode 0x2200 0b01_0101_1101_0110 = .instr (.decM 0x56) := by decide

theorem test_decode_rotate :
    decode 0x2200 0b01_1001_0101_0110 = .instr (.rraM 0x56) ∧
    decode 0x2200 0b01_1001_1101_0110 = .instr (.rrM 0x56) ∧
    decode 0x2200 0b01_1011_0101_0110 = .instr (.rrcaM 0x56) ∧
    decode 0x2200 0b01_1011_1101_0110 = .instr (.rrcM 0x56) ∧
    decode 0x2200 0b01_1000_0101_0110 = .instr (.rlaM 0x56) ∧
    decode 0x2200 0b01_1000_1101_0110 = .instr (.rlM 0x56) ∧
    decode 0x2200 0b01_1010_0101_0110 = .instr (.rlcaM 0x56) ∧
    decode 0x2200 0b01_1010_1101_0110 = .instr (.rlcM 0x56) := by decide

theorem test_decode_move :
    decode 0x2200 0b00_0111_0101_0110 = .instr (.movAM 0x56) ∧
    decode 0x2200 0b00_0000_1101_0110 = .instr (.movMA 0x56) ∧
    decode 0x2200 0b00_1111_1010_0110 = .instr (.movAX 0xA6) := by decide

theorem test_decode_bit :
    decode 0x2200 0b11_0110_1101_0110 = .instr (.clrMI 0x56 5) ∧
    decode 0x2200 0b11_0010_1101_0110 = .instr (.setMI 0x56 5) := by decide

theorem test_decode_branch :
    decode 0x2200 0b10_1010_1100_0101 = .instr (.jmp 0x2C5) ∧
    decode 0x2200 0b01_0000_1101_0110 = .instr (.szM 0x56) ∧
    decode 0x2200 0b01_0000_0101_0110 = .instr (.szaM 0x56) ∧
    decode 0x2200 0b11_1110_1101_0110 = .instr (.szMI 0x56 5) ∧
    decode 0x2200 0b11_1010_1101_0110 = .instr (.snzMI 0x56 5) ∧
    decode 0x2200 0b01_0110_1101_0110 = .instr (.sizM 0x56) ∧
    decode 0x2200 0b01_0111_1101_0110 = .instr (.sdzM 0x56) ∧
    decode 0x2200 0b01_0110_0101_0110 = .instr (.sizaM 0x56) ∧
    decode 0x2200 0b01_0111_0101_0110 = .instr (.sdzaM 0x56) ∧
    decode 0x2200 0b10_0010_1100_0101 = .instr (.call 0x2C5) ∧
    decode 0x2200 0b00_0000_0000_0011 = .instr .ret ∧
    decode 0x2200 0b00_0000_0000_0100 = .instr .reti ∧
    decode 0x2200 0b00_1001_1010_0110 = .instr (.retAX 0xA6) := by decide

theorem test_decode_table :
    decode 0x2200 0b01_1101_0101_0110 = .instr (.tabrdcM 0x56) ∧
    decode 0x2200 0b01_1101_1101_0110 = .instr (.tabrdlM 0x56) := by decide

theorem test_decode_misc :
    decode 0x2200 0b00_0000_0000_0000 = .instr .nop ∧
    decode 0x2200 0b01_1111_0101_0110 = .instr (.clrM 0x56) ∧
    decode 0x2200 0b01_1111_1101_0110 = .instr (.setM 0x56) ∧
    decode 0x2200 0b00_0000_0000_0001 = .instr .clrWdt ∧
    decode 0x0000 0b00_0000_0000_0001 = .instr .clrWdt1 ∧
    decode 0x2200 0b00_0000_0000_0101 = .instr .clrWdt2 ∧
    decode 0x2200 0b01_0001_1101_0110 = .instr (.swapM 0x56) ∧
    decode 0x2200 0b01_0001_0101_0110 = .instr (.swapaM 0x56) ∧
    decode 0x2200 0b00_0000_0000_0010 = .instr .halt := by decide

theorem test_decode_reserved :
    decode 0x2200 0x0006 = .reserved 0x0006 ∧ decode 0x2200 0x007F = .reserved 0x007F ∧
    decode 0x2200 0x0780 = .reserved 0x0780 ∧ decode 0x2200 0x08FF = .reserved 0x08FF ∧
    decode 0x2200 0x1C00 = .reserved 0x1C00 ∧ decode 0x2200 0x1CFF = .reserved 0x1CFF ∧
    decode 0x2200 0x1E00 = .reserved 0x1E00 ∧ decode 0x2200 0x1E7F = .reserved 0x1E7F ∧
    decode 0x2200 0x2400 = .reserved 0x2400 ∧ decode 0x2200 0x27FF = .reserved 0x27FF ∧
    decode 0x2200 0x2C00 = .reserved 0x2C00 ∧ decode 0x2200 0x2FFF = .reserved 0x2FFF :=
  ⟨rfl, rfl, rfl, rfl, rfl, rfl, rfl, rfl, rfl, rfl, rfl, rfl⟩
theorem test_table_word_above_14_bits : decodeTableWord 16 0x4000 = none ∧ decodeTableWord 16 0x0340 = some (.addAM 0x40) := by
  decide

/-! ## Helpers -/

/-- Just fetched from 030H, [40H] = v. -/
def start (acc v : Byte) (c : Bool) : State :=
  { State.reset with pc := 0x031, acc := acc, c := c, ram := Memory.ofList 0x40 [v] }

/-- The next state satisfies `p`. -/
def gives (o : Out) (p : State → Bool) : Bool :=
  match o with
  | .next t => p t
  | .fault _ => false
  | .refused _ => false

/-- C AC OV Z. -/
def flags (s : State) : List Bool := [s.c, s.ac, s.ov, s.z]

/-- [40H]. -/
def at40 (s : State) : Byte := ramAt s 0x40


/-! ## Arithmetic (section 2) -/

theorem test_addAM_wraps : gives (exec (.addAM 0x40) (start 0x3A 0xC6 false)) (fun t => t.acc == 0x00 && flags t == [true, true, false, true]) = true := by decide
theorem test_addAM_overflow_ignores_carry_in : gives (exec (.addAM 0x40) (start 0x80 0x80 true)) (fun t => t.acc == 0x00 && flags t == [true, false, true, true]) = true := by decide
theorem test_adcAM : gives (exec (.adcAM 0x40) (start 0x7F 0x00 true)) (fun t => t.acc == 0x80 && flags t == [false, true, true, false]) = true := by decide
theorem test_subAM_borrows : gives (exec (.subAM 0x40) (start 0x30 0x50 false)) (fun t => t.acc == 0xE0 && flags t == [false, true, false, false]) = true := by decide
theorem test_subAM_overflow : gives (exec (.subAM 0x40) (start 0x80 0x01 false)) (fun t => t.acc == 0x7F && flags t == [true, false, true, false]) = true := by decide
theorem test_sbcAM : gives (exec (.sbcAM 0x40) (start 0x50 0x30 false)) (fun t => t.acc == 0x1F && flags t == [true, false, false, false]) = true := by decide
theorem test_sbcAM_zero : gives (exec (.sbcAM 0x40) (start 0x00 0xFF false)) (fun t => t.acc == 0x00 && flags t == [false, false, false, true]) = true := by decide
theorem test_addmAM : gives (exec (.addmAM 0x40) (start 0x01 0xFF false)) (fun t => at40 t == 0x00 && t.acc == 0x01 && flags t == [true, true, false, true]) = true := by decide
theorem test_adcmAM : gives (exec (.adcmAM 0x40) (start 0x08 0x08 true)) (fun t => at40 t == 0x11 && t.acc == 0x08 && flags t == [false, true, false, false]) = true := by decide
theorem test_submAM : gives (exec (.submAM 0x40) (start 0x05 0x06 false)) (fun t => at40 t == 0xFF && t.acc == 0x05 && flags t == [false, false, false, false]) = true := by decide
theorem test_sbcmAM : gives (exec (.sbcmAM 0x40) (start 0x05 0x05 false)) (fun t => at40 t == 0xFF && t.acc == 0x05 && flags t == [false, false, false, false]) = true := by decide
theorem test_addAX : gives (exec (.addAX 0x20) (start 0xF0 0x00 false)) (fun t => t.acc == 0x10 && flags t == [true, false, false, false]) = true := by decide
theorem test_subAX : gives (exec (.subAX 0x80) (start 0x80 0x00 false)) (fun t => t.acc == 0x00 && flags t == [true, true, false, true]) = true := by decide
theorem test_daaM_low_digit_carries : gives (exec (.daaM 0x40) (start 0x7D 0x00 false)) (fun t => at40 t == 0x83 && t.acc == 0x7D && flags t == [false, false, false, false]) = true := by decide
theorem test_daaM_both_digits : gives (exec (.daaM 0x40) { start 0x32 0x00 true with ac := true }) (fun t =>
    at40 t == 0x98 && flags t == [true, true, false, false]) = true := by decide

/-! ## Logic (section 3) -/

theorem test_andAM : gives (exec (.andAM 0x40) (start 0xF0 0x0F true)) (fun t => t.acc == 0x00 && flags t == [true, false, false, true]) = true := by decide
theorem test_orAM : gives (exec (.orAM 0x40) (start 0xA0 0x05 true)) (fun t => t.acc == 0xA5 && flags t == [true, false, false, false]) = true := by decide
theorem test_xorAM : gives (exec (.xorAM 0x40) (start 0xFF 0x0F true)) (fun t => t.acc == 0xF0 && flags t == [true, false, false, false]) = true := by decide
theorem test_andmAM : gives (exec (.andmAM 0x40) (start 0x0F 0x3C false)) (fun t => at40 t == 0x0C && t.acc == 0x0F && !t.z) = true := by decide
theorem test_ormAM : gives (exec (.ormAM 0x40) (start 0x81 0x18 false)) (fun t => at40 t == 0x99 && t.acc == 0x81 && !t.z) = true := by decide
theorem test_xormAM : gives (exec (.xormAM 0x40) (start 0xFF 0xFF false)) (fun t => at40 t == 0x00 && t.acc == 0xFF && t.z) = true := by decide
theorem test_andAX : gives (exec (.andAX 0x0F) (start 0x3C 0x00 false)) (fun t => t.acc == 0x0C && !t.z) = true := by decide
theorem test_orAX : gives (exec (.orAX 0x00) (start 0x00 0x00 false)) (fun t => t.acc == 0x00 && t.z) = true := by decide
theorem test_xorAX : gives (exec (.xorAX 0xFF) (start 0xAA 0x00 false)) (fun t => t.acc == 0x55 && !t.z) = true := by decide
theorem test_cplM : gives (exec (.cplM 0x40) (start 0x00 0x5A false)) (fun t => at40 t == 0xA5 && t.acc == 0x00 && !t.z) = true := by decide
theorem test_cplaM : gives (exec (.cplaM 0x40) (start 0x00 0xFF false)) (fun t => t.acc == 0x00 && at40 t == 0xFF && t.z) = true := by decide

/-! ## Increment and decrement (section 4): C is kept at 1 -/

theorem test_incM : gives (exec (.incM 0x40) (start 0x00 0xFF true)) (fun t => at40 t == 0x00 && flags t == [true, false, false, true]) = true := by decide
theorem test_incaM : gives (exec (.incaM 0x40) (start 0x11 0xFF true)) (fun t => t.acc == 0x00 && at40 t == 0xFF && flags t == [true, false, false, true]) = true := by decide
theorem test_decM : gives (exec (.decM 0x40) (start 0x00 0x00 true)) (fun t => at40 t == 0xFF && flags t == [true, false, false, false]) = true := by decide
theorem test_decaM : gives (exec (.decaM 0x40) (start 0x11 0x80 true)) (fun t => t.acc == 0x7F && at40 t == 0x80 && flags t == [true, false, false, false]) = true := by decide

/-! ## Rotate (section 5) -/

theorem test_rrM : gives (exec (.rrM 0x40) (start 0x00 0x01 false)) (fun t => at40 t == 0x80 && !t.c) = true := by decide
theorem test_rraM : gives (exec (.rraM 0x40) (start 0x00 0x81 true)) (fun t => t.acc == 0xC0 && at40 t == 0x81 && t.c) = true := by decide
theorem test_rrcM : gives (exec (.rrcM 0x40) (start 0x00 0x01 false)) (fun t => at40 t == 0x00 && t.c && !t.z) = true := by decide
theorem test_rrcaM : gives (exec (.rrcaM 0x40) (start 0x00 0x81 true)) (fun t => t.acc == 0xC0 && at40 t == 0x81 && t.c) = true := by decide
theorem test_rlM : gives (exec (.rlM 0x40) (start 0x00 0x80 false)) (fun t => at40 t == 0x01 && !t.c) = true := by decide
theorem test_rlaM : gives (exec (.rlaM 0x40) (start 0x00 0x81 false)) (fun t => t.acc == 0x03 && at40 t == 0x81 && !t.c) = true := by decide
theorem test_rlcM : gives (exec (.rlcM 0x40) (start 0x00 0x80 false)) (fun t => at40 t == 0x00 && t.c && !t.z) = true := by decide
theorem test_rlcaM : gives (exec (.rlcaM 0x40) (start 0x00 0x40 true)) (fun t => t.acc == 0x81 && at40 t == 0x40 && !t.c) = true := by decide

/-! ## Data move, the data map and the bit operations (sections 6, 7) -/

theorem test_movAM_through_mp : gives (exec (.movAM 0x00) { State.reset with mp := 0x41, ram := [(0x41, 0x77)] }) (fun t =>
    t.acc == 0x77) = true := by decide
theorem test_movAM_port_a : gives (exec (.movAM 0x12) { State.reset with pa := 0xA5, pac := 0x0F, paPads := 0xFF }) (fun t =>
    t.acc == 0xAF) = true := by decide
theorem test_movMA_status : gives (exec (.movMA 0x0A) (start 0xFF 0x00 false)) (fun t => memRead 0x0A t == 0x0F) = true := by decide
theorem test_movMA_pcl : gives (exec (.movMA 0x06) { start 0x80 0x00 false with pc := 0x300 }) (fun t =>
    t.pc == 0x380) = true := by decide
theorem test_movAX : gives (exec (.movAX 0x00) (start 0x33 0x00 false)) (fun t => t.acc == 0x00 && !t.z) = true := by decide
theorem test_setMI_copies_pads_to_latch : gives (exec (.setMI 0x12 0)
    { State.reset with pa := 0x00, pac := 0xF0, paPads := 0xA0 }) (fun t => t.pa == 0xA1) = true := by decide
theorem test_setMI_timer : gives (exec (.setMI 0x0D 0) { State.reset with tmrCnt := 0x10, tmrPre := 0x20 }) (fun t =>
    t.tmrCnt == 0x11 && t.tmrPre == 0x11) = true := by decide
theorem test_clrMI : gives (exec (.clrMI 0x40 3) (start 0x00 0xFF false)) (fun t => at40 t == 0xF7) = true := by decide
theorem test_clrMI_pd_not_writable : gives (exec (.clrMI 0x0A 4) { State.reset with pd := true }) (fun t => t.pd) = true := by
  decide

/-! ## Branch (section 8) -/

theorem test_jmp : gives (exec (.jmp 0x123) (start 0x00 0x00 false)) (fun t => t.pc == 0x123) = true := by decide
theorem test_szM_wraps : gives (exec (.szM 0x40) { State.reset with pc := 0x3FF }) (fun t => t.pc == 0x000) = true := by decide
theorem test_szM_not_zero : gives (exec (.szM 0x40) (start 0x00 0x01 false)) (fun t => t.pc == 0x031) = true := by decide
theorem test_szaM : gives (exec (.szaM 0x40) (start 0x55 0x07 false)) (fun t => t.acc == 0x07 && t.pc == 0x031) = true := by decide
theorem test_szMI : gives (exec (.szMI 0x40 3) (start 0x00 0xF7 false)) (fun t => t.pc == 0x032) = true := by decide
theorem test_snzMI : gives (exec (.snzMI 0x40 7) (start 0x00 0x7F false)) (fun t => t.pc == 0x031) = true := by decide
theorem test_sizM : gives (exec (.sizM 0x40) (start 0x00 0xFF false)) (fun t => at40 t == 0x00 && t.pc == 0x032 && !t.z) = true := by decide
theorem test_sdzM : gives (exec (.sdzM 0x40) (start 0x00 0x00 false)) (fun t => at40 t == 0xFF && t.pc == 0x031) = true := by decide
theorem test_sizaM : gives (exec (.sizaM 0x40) (start 0x55 0xFF false)) (fun t => t.acc == 0x00 && at40 t == 0xFF && t.pc == 0x032) = true := by decide
theorem test_sdzaM : gives (exec (.sdzaM 0x40) (start 0x55 0x02 false)) (fun t => t.acc == 0x01 && at40 t == 0x02 && t.pc == 0x031) = true := by decide
theorem test_call_full_stack : gives (exec (.call 0x200) { State.reset with pc := 0x031, stack := [0x111, 0x222] }) (fun t =>
    t.pc == 0x200 && t.stack == [0x222, 0x031]) = true := by decide
theorem test_ret : gives (exec .ret { State.reset with stack := [0x111, 0x222] }) (fun t =>
    t.pc == 0x222 && t.stack == [0x111] && !t.emi) = true := by decide
theorem test_ret_empty_faults : (match exec .ret State.reset with | .fault .stackUnderflow => true | _ => false) = true := by decide
theorem test_reti : gives (exec .reti { State.reset with stack := [0x123], eei := true, eti := true }) (fun t =>
    t.pc == 0x123 && t.stack == [] && memRead 0x0B t == 0x07) = true := by decide
theorem test_retAX : gives (exec (.retAX 0x5A) { State.reset with stack := [0x123] }) (fun t =>
    t.pc == 0x123 && t.acc == 0x5A) = true := by decide
theorem test_addmAM_pcl_computed_jump : gives (exec (.addmAM 0x06) { start 0xF0 0x00 false with pc := 0x111 }) (fun t =>
    t.pc == 0x101 && t.c) = true := by decide

/-! ## Table read and miscellaneous (sections 9, 10) -/

theorem test_tabrdcM_page_of_next_word : gives (exec (.tabrdcM 0x40)
    { State.reset with pc := 0x200, tblp := 0x20, program := [(0x120, 0x2A5C), (0x220, 0x1234)] }) (fun t =>
    at40 t == 0x34 && t.tblh == 0x12) = true := by decide
theorem test_tabrdlM_own_pointer : gives (exec (.tabrdlM 0x07) { State.reset with tblp := 0x10, program := [(0x310, 0x0155)] }) (fun t =>
    t.tblp == 0x55 && t.tblh == 0x01) = true := by decide
theorem test_tabrdlM_tblh_as_destination : gives (exec (.tabrdlM 0x08)
    { State.reset with tblp := 0x10, tblh := 0x3F, program := [(0x310, 0x0155)] }) (fun t => t.tblh == 0x01) = true := by decide
theorem test_nop : gives (exec .nop (start 0x12 0x34 true)) (fun t => t == start 0x12 0x34 true) = true := by decide
theorem test_clrM : gives (exec (.clrM 0x40) (start 0x00 0xA5 false)) (fun t => t.ram == [] && !t.z) = true := by decide
theorem test_setM_intc : gives (exec (.setM 0x0B) State.reset) (fun t => memRead 0x0B t == 0x37) = true := by decide
theorem test_swapM : gives (exec (.swapM 0x40) (start 0x00 0x3C false)) (fun t => at40 t == 0xC3) = true := by decide
theorem test_swapaM_acc : gives (exec (.swapaM 0x05) (start 0x12 0x00 false)) (fun t => t.acc == 0x21) = true := by decide

/-- TO = PD = 1, WDT_CNT = 55H, WDT_PRE = 3, with option word `opt`. -/
def wdtState (opt : BitVec 14) : State :=
  { State.reset with option := opt, timedOut := true, pd := true, wdtCnt := 0x55, wdtPre := 3 }

theorem test_clrWdt : gives (exec .clrWdt (wdtState 0x0200)) (fun t =>
    t == { wdtState 0x0200 with timedOut := false, pd := false, wdtCnt := 0, wdtPre := 0 }) = true := by decide
theorem test_clrWdt_disabled : gives (exec .clrWdt (wdtState 0x2200)) (fun t => t == wdtState 0x2200) = true := by decide
theorem test_clrWdt1_alone : gives (exec .clrWdt1 { wdtState 0x0000 with cw1 := true }) (fun t =>
    t == { wdtState 0x0000 with cw1 := true }) = true := by decide
theorem test_clrWdt2_inactive : gives (exec .clrWdt2 (wdtState 0x0200)) (fun t => t == wdtState 0x0200) = true := by decide
theorem test_clrWdt2_completes : gives (exec .clrWdt2 { wdtState 0x0000 with cw1 := true }) (fun t =>
    t == { wdtState 0x0000 with timedOut := false, pd := false, wdtCnt := 0, wdtPre := 0 }) = true := by decide
theorem test_halt : gives (exec .halt (wdtState 0x0000)) (fun t =>
    t.halted && t.pd && !t.timedOut && t.wdtCnt == 0 && t.wdtPre == 0) = true := by decide

/-! ## Whole steps: fetch, cycles, interrupts (sections 8, 11) -/

/-- The word `w` at 030H, the timer in mode 10 with TON = 1, counter FEH, preload F0H. -/
def timed (w : ProgWord) : State :=
  { State.reset with pc := 0x030, program := [(0x030, w)], tm1 := true, ton := true, tmrCnt := 0xFE, tmrPre := 0xF0 }

theorem test_step_one_cycle : gives (step (timed 0x0000)) (fun t => t.pc == 0x031 && t.tmrCnt == 0xFF && !t.tf) = true := by decide
theorem test_step_two_cycles : gives (step (timed 0x2923)) (fun t => t.pc == 0x123 && t.tmrCnt == 0xF0 && t.tf) = true := by decide
theorem test_step_own_tick_after_write : gives (step { timed 0x008D with acc := 0x33, tmrCnt := 0x10, tmrPre := 0x20 }) (fun t =>
    t.tmrPre == 0x33 && t.tmrCnt == 0x11) = true := by decide
theorem test_step_halt_own_cycle_ticks_timer : gives (step (timed 0x0002)) (fun t => t.halted && t.tmrCnt == 0xFF && !t.tf) = true ∧
    gives (step { timed 0x0002 with tmrCnt := 0xFF }) (fun t => t.halted && t.tmrCnt == 0xF0 && t.tf) = true := by decide
theorem test_step_halt_leaves_wdt_at_zero : gives (step { timed 0x0002 with option := 0x1200, wdtCnt := 0x55 }) (fun t =>
    t.halted && t.wdtCnt == 0 && t.wdtPre == 0 && t.tmrCnt == 0xFF) = true := by decide
theorem test_step_reserved_word :
    (match step (timed 0x2C00) with | .refused (.reservedWord w) => w == 0x2C00 | _ => false) = true := by decide
theorem test_withFetchWord : gives (step (State.reset.withFetchWord 16 0x0F5A)) (fun t => t.acc == 0x5A && t.pc == 0x001) = true := by
  decide

/-- INTC as given, `pc` = 123H, a NOP there. -/
def ready (intc : Byte) (stack : List ProgAddr) : State :=
  writeLoc .intc intc { State.reset with pc := 0x123, stack := stack }

theorem test_external_before_timer : gives (step (ready 0x37 [])) (fun t =>
    t.pc == 0x004 && t.stack == [0x123] && memRead 0x0B t == 0x26) = true := by decide
theorem test_timer_interrupt : gives (step (ready 0x25 [])) (fun t =>
    t.pc == 0x008 && t.stack == [0x123] && memRead 0x0B t == 0x04) = true := by decide
theorem test_full_stack_holds_interrupt : gives (step (ready 0x37 [0x111, 0x222])) (fun t =>
    t.pc == 0x124 && memRead 0x0B t == 0x37) = true := by decide
theorem test_masked_source_waits : gives (step (ready 0x15 [])) (fun t => t.pc == 0x124 && memRead 0x0B t == 0x15) = true := by decide

/-! ## Timer edges, watchdog, HALT, reset (sections 11, 12) -/

/-- TMRC as given, the TMR pad at `level`. -/
def edge (tmrc cnt : Byte) (level : Bool) : State :=
  writeLoc .tmrc tmrc { State.reset with tmrPad := level, tmrCnt := cnt, tmrPre := 0x80 }

theorem test_event_count_falling : envStep (.pad .tmr false) (edge 0x58 0xFE true) =
    { edge 0x58 0xFF true with tmrPad := false } := by decide
theorem test_event_count_wakes : (envStep (.pad .tmr false) { edge 0x58 0xFF true with halted := true }).halted = false := by decide
theorem test_pulse_start : (envStep (.pad .tmr true) (edge 0xD8 0x00 false)).pwmRun = true := by decide
theorem test_pulse_stop : memRead 0x0E (envStep (.pad .tmr false) { edge 0xD8 0x05 true with pwmRun := true }) = 0xC8 := by decide

/-- WDT on the instruction clock, ratio 1:1, 255 cycles counted. -/
def almostOut : State := { State.reset with option := 0x1200, wdts := 0x00, wdtCnt := 0xFF }

theorem test_wdt_normal_reset : gives (step almostOut) (fun t => t.timedOut && t.pc == 0x000 && t.wdts == 0x07) = true := by decide
theorem test_wdt_warm_reset :
    envStep .rcTick { almostOut with option := 0x0200, halted := true, pd := true, pc := 0x041, stack := [0x010], emi := true } =
      { almostOut with option := 0x0200, pd := true, emi := true, timedOut := true, wdtCnt := 0 } := by decide
theorem test_int_edge_wakes : (envStep (.pad .int false) { State.reset with halted := true }).halted = false ∧
    (envStep (.pad .int false) { State.reset with halted := true, eif := true }).halted = true := by decide
theorem test_port_a_wakes : (envStep (.pad (.pa 0) false) { State.reset with halted := true, option := 0x2201 }).halted = false ∧
    (envStep (.pad (.pa 1) false) { State.reset with halted := true, option := 0x2201 }).halted = true := by decide

/-- The start state of section 12. -/
def before : State :=
  { State.reset with
    pc := 0x123, stack := [0x111], acc := 0x5A, ov := true, ac := true, c := true, emi := true, eti := true, tf := true
    wdts := 0x03, tm1 := true, ton := true, pa := 0x00, pac := 0x00, portc := 0, pcc := 0, cw1 := true, ram := [(0x40, 0x99)] }

theorem test_res_normal : (fun t => t.pc == 0x000 && t.stack == [] && memRead 0x0B t == 0x00 && memRead 0x0E t == 0x08 &&
    memRead 0x0A t == 0x0B && t.acc == 0x5A && at40 t == 0x99 && t.pac == 0xFF && !t.cw1)
    (envStep (.pad .res false) before) = true := by decide
theorem test_res_halt : memRead 0x0A (envStep (.pad .res false) { before with halted := true, pd := true }) = 0x1B := by decide
theorem test_wdt_normal_status : memRead 0x0A (applyReset .wdtNormal before) = 0x2B := by decide
theorem test_wdt_halt_status : memRead 0x0A (applyReset .wdtHalt { before with halted := true, pd := true }) = 0x3B ∧
    memRead 0x0B (applyReset .wdtHalt { before with halted := true, pd := true }) = 0x25 := by decide
theorem test_prom_locked : promVerify true ⟨0x010, false, false⟩ { State.reset with program := [(0x010, 0x1234)] } = some 0x3FFF ∧
    promVerify false ⟨0x010, false, false⟩ { State.reset with program := [(0x010, 0x1234)] } = some 0x1234 := by decide


/-! ## The PROM programming interface (70_reset R550 to R555) -/

/-- CS low under VPP; one nibble is CLK high and then its falling edge. -/
def nibble (rw : Bool) (ad : BitVec 4) : List PromPins :=
  [{ vpp := true, cs := false, clk := true, rw := rw, ad := ad }, { vpp := true, cs := false, clk := false, rw := rw, ad := ad }]

/-- CS goes high and low again, then the address phase: nibbles `a1` (lowest), `a2`, `a3`, and OSEL. -/
def selectAddress (a3 a2 a1 : BitVec 4) (osel : Bool) : List PromPins :=
  [{ vpp := true, cs := true, clk := false, rw := false, ad := 0 }, { vpp := true, cs := false, clk := false, rw := false, ad := 0 }] ++
    nibble false a1 ++ nibble false a2 ++ nibble false a3 ++ nibble false (if osel then 0b1000 else 0)

/-- The word 1234H into the chip. -/
def put1234 : List PromPins := nibble false 0x4 ++ nibble false 0x3 ++ nibble false 0x2 ++ nibble false 0x1

/-- Four clocks that verify a word. -/
def readWord : List PromPins := nibble true 0 ++ nibble true 0 ++ nibble true 0 ++ nibble true 0

theorem test_prom_program_then_verify :
    (promSession false (selectAddress 0 1 0 false ++ put1234 ++ readWord) .rest State.reset).2 =
      ({ State.reset with program := [(0x010, 0x1234)] }, [0x4, 0x3, 0x2, 0x1]) := by decide
theorem test_prom_verification_increments :
    (promSession false (selectAddress 0 1 0 false ++ readWord ++ put1234) .rest State.reset).2.1.program = [(0x011, 0x1234)] := by
  decide
theorem test_prom_uncontinued_address_does_not_increment :
    (promSession false (selectAddress 0 1 0 false ++ readWord ++ selectAddress 0 1 0 false ++ put1234) .rest State.reset).2.1.program =
      [(0x010, 0x1234)] := by decide
theorem test_prom_interrupted_cycle_writes_nothing :
    (promSession false (selectAddress 0 1 0 false ++ nibble false 0x4 ++ selectAddress 0 2 0 false) .rest State.reset).2.1 =
      State.reset := by decide
theorem test_prom_option_word :
    (promSession false (selectAddress 0 1 0 true ++ put1234) .rest State.reset).2.1 = { State.reset with option := 0x1234 } := by decide
theorem test_prom_needs_vpp :
    (promSession false ((selectAddress 0 1 0 false ++ put1234).map fun p => { p with vpp := false }) .rest State.reset).2.1 =
      State.reset := by decide

/-! ## Another encoding, unending runs (30_encoding R141, 60_exceptions R454) -/

theorem test_encoding_is_replaceable : gives (nextMove (fun _ w => .instr (.movAX (w.extractLsb' 0 8))) { State.reset with program := [(0x000, 0x005A)] })
    (fun t => t.acc == 0x5A && t.pc == 0x001) = true := by decide

/-- The CPU and the WDT RC oscillator by turns. -/
def byTurns : Schedule := fun n => if n % 2 = 0 then .cpu else .rcTick

theorem fair_byTurns : Fair byTurns :=
  ⟨fun n => ⟨2 * n, by omega, by simp [byTurns]⟩, fun n => ⟨2 * n + 1, by omega, by simp [byTurns]⟩⟩

/-- An unprogrammed part whose WDT runs on its RC oscillator. -/
def blank : State := { State.reset with option := 0x0200 }

/-- Its program is NOP everywhere, so its run by turns never stops. -/
theorem blank_runs (n : Nat) : ∃ t, runUnder decode byTurns n blank = .next t ∧ t.program = [] ∧ t.option = 0x0200 := by
  induction n with
  | zero => exact ⟨blank, rfl, rfl, rfl⟩
  | succ n ih =>
    obtain ⟨t, ht, hp, ho⟩ := ih
    rw [runUnder_succ ht]
    have hd : decode t.option (fetch t) = .instr .nop := by
      simp only [fetch, progRead, hp]
      rfl
    unfold byTurns
    split
    · change ∃ u, cpuStep decode t = .next u ∧ _
      unfold cpuStep runInstruction
      rw [if_pos (by rw [ho]; rfl), hd]
      split
      · exact ⟨t, rfl, hp, ho⟩
      · split
        · exact ⟨_, rfl, (applyTicks_proms _ _).1.trans hp, (applyTicks_proms _ _).2.trans ho⟩
        · exact ⟨_, rfl, (applyTicks_proms _ _).1.trans hp, (applyTicks_proms _ _).2.trans ho⟩
    · refine ⟨_, rfl, ?_⟩
      show (rcTick t).program = [] ∧ (rcTick t).option = 0x0200
      unfold rcTick
      split
      · rcases wdtTick_cases t with e | ⟨c, p, e⟩ <;> rw [e]
        · exact ⟨(applyReset_proms _ t).1.trans hp, (applyReset_proms _ t).2.trans ho⟩
        · exact ⟨hp, ho⟩
      · exact ⟨hp, ho⟩

/-! ## Witnesses: states and operands that meet the hypotheses of each statement, clause by clause -/

theorem witness_DecodeEncodeAgree : Instr.wellFormed 0x2200 .clrWdt = true ∧ Instr.wellFormed 0x0000 .clrWdt1 = true ∧
    Instr.wellFormed 0x0000 (.setMI 0x7F 7) = true := by decide
theorem witness_DecodedWordsReencode : decode 0x2200 0x0001 = .instr .clrWdt ∧ decode 0x0000 0x3FFF = .instr (.szMI 0x7F 7) := by
  decide
theorem witness_ReservedWordsRefused : Running (timed 0x0006) ∧ pendingInterrupt (timed 0x0006) = none ∧
    inGap (fetch (timed 0x0006)).toNat := ⟨⟨rfl, rfl, rfl, rfl⟩, rfl, .inl ⟨by decide, by decide⟩⟩
theorem witness_DataReadMap : resolve 0x00 State.reset = none ∧
    (∀ a : DataAddr, a ≠ 0 → resolve a State.reset = some a ∧ resolve 0x00 { State.reset with mp := a } = some a) := by decide
theorem witness_DataWriteMap : resolve 0x00 State.reset = none ∧ resolve 0x0D State.reset = some 0x0D ∧ State.reset.ton = false ∧
    resolve 0x0D (timed 0) = some 0x0D ∧ (timed 0).ton = true ∧ resolve 0x40 State.reset = some 0x40 ∧
    resolve 0x7F State.reset = some 0x7F ∧ resolve 0x18 State.reset = some 0x18 ∧ resolve 0x3F State.reset = some 0x3F := by decide
theorem witness_IndirectAccessGoesThroughMp : State.reset.mp = 0 ∧ State.reset.mp ≠ 0x01 ∧
    ({ State.reset with mp := 0x7F } : State).mp ≠ 0 ∧ ({ State.reset with mp := 0x7F } : State).mp ≠ 0x01 := by decide
theorem witness_RamReadAfterWrite : target 0x40 State.reset = .ram 0x40 ∧ target 0x7F State.reset = .ram 0x7F ∧
    target 0x00 { State.reset with mp := 0x55 } = .ram 0x55 ∧ 0x40 ≤ (0x41 : DataAddr).toNat ∧ (0x41 : DataAddr) ≠ 0x40 := by decide
theorem witness_PortReadTakesPadOrLatch : resolve 0x12 State.reset = some 0x12 ∧ resolve 0x14 State.reset = some 0x14 ∧
    resolve 0x00 { State.reset with mp := 0x16 } = some 0x16 := by decide
theorem witness_destination_not_status : target 0x40 State.reset ≠ .status ∧ target 0x06 State.reset ≠ .status ∧
    target 0x00 State.reset ≠ .status := by decide
theorem witness_SubtractionComparesOperands : (start 0x00 0x00 true).c = true ∧ (start 0x00 0x00 false).c = false := by decide
theorem witness_DecimalAdjust : target 0x40 (start 0x1A 0x00 false) ≠ .status ∧
    (9 < ({ start 0x1A 0x00 false with ac := true } : State).acc.toNat % 16 ∧
      ({ start 0x1A 0x00 false with ac := true } : State).ac = true) ∧
    ¬(9 < (start 0x1A 0x00 false).acc.toNat % 16 ∧ (start 0x1A 0x00 false).ac = true) := by decide
theorem witness_DecimalAdjustAfterAddIsBcd : (start 0x99 0x99 true).acc = bcd 99 ∧ memRead 0x40 (start 0x99 0x99 true) = bcd 99 ∧
    0x40 ≤ (0x7F : DataAddr).toNat := by decide
theorem witness_StatusDoubleWriteIsOpen : target 0x0A State.reset = .status ∧
    target 0x00 { State.reset with mp := 0x0A } = .status := by decide
theorem witness_PushKeepsTwoAddresses : State.reset.stack.length < 2 ∧ (ready 0x00 [0x111]).stack.length < 2 ∧
    (ready 0x00 [0x111, 0x222]).stack = [0x111, 0x222] := by decide
theorem witness_ReturnsPopTheStack : (ready 0x00 [0x111, 0x222]).stack = [0x111] ++ [0x222] ∧
    (ready 0x00 [0x111]).stack = [] ++ [0x111] := by decide
theorem witness_OnlyEmptyReturnsStop : State.reset.stack = [] ∧ (ready 0x00 [0x111]).stack ≠ [] := by decide
theorem witness_CallThenReturnResumes : (ready 0x00 [0x111]).stack.length < 2 ∧ State.reset.stack.length < 2 := by decide
theorem witness_SkipTests : (memRead 0x40 (start 0x00 0x00 false)).toNat = 0 ∧ (memRead 0x40 (start 0x00 0x01 false)).toNat ≠ 0 ∧
    (memRead 0x40 (start 0x00 0x80 false)).toNat / 2 ^ (7 : BitVec 3).toNat % 2 = 1 := by decide
theorem witness_SkipOnCountInMemory : ¬(target 0x40 (start 0x00 0xFF false) = .pcl ∧ (memRead 0x40 (start 0x00 0xFF false)).toNat = 255) ∧
    ¬(target 0x06 (start 0x00 0x00 false) = .pcl ∧ (memRead 0x06 (start 0x00 0x00 false)).toNat = 1) := by decide
theorem witness_PclLoadWithSkipIsOpen :
    (target 0x06 { State.reset with pc := 0x1FF } = .pcl ∧ (memRead 0x06 { State.reset with pc := 0x1FF }).toNat = 255) ∧
    (target 0x06 { State.reset with pc := 0x101 } = .pcl ∧ (memRead 0x06 { State.reset with pc := 0x101 }).toNat = 1) := by decide
theorem witness_TableReads : (0x0FF : ProgAddr).toNat =
      ({ State.reset with tblp := 0xFF } : State).pc.toNat / 256 * 256 + ({ State.reset with tblp := 0xFF } : State).tblp.toNat ∧
    (0x3FF : ProgAddr).toNat = 0x300 + ({ State.reset with tblp := 0xFF } : State).tblp.toNat := by decide
theorem witness_NopOnlyAdvances : Running State.reset ∧ pendingInterrupt State.reset = none ∧ fetch State.reset = 0x0000 ∧
    clocked State.reset = false := ⟨⟨rfl, rfl, rfl, rfl⟩, rfl, rfl, rfl⟩
theorem witness_ClearWatchdogByOption : (wdtState 0x2200).option.getLsbD 13 = true ∧ (wdtState 0x0200).option.getLsbD 13 = false ∧
    (wdtState 0x0200).option.getLsbD 9 = true ∧ (wdtState 0x0000).option.getLsbD 9 = false ∧
    ({ wdtState 0x0000 with cw2 := true } : State).cw2 = true ∧ (wdtState 0x0000).cw1 = false := by decide
theorem witness_InterruptsAcknowledged : Running (ready 0x37 [0x111]) ∧ (ready 0x37 [0x111]).emi = true ∧
    (ready 0x37 [0x111]).stack.length < 2 ∧ (ready 0x37 [0x111]).eei = true ∧ (ready 0x37 [0x111]).eif = true ∧
    Running (ready 0x25 [0x111]) ∧ (ready 0x25 [0x111]).emi = true ∧ (ready 0x25 [0x111]).stack.length < 2 ∧
    ¬((ready 0x25 [0x111]).eei = true ∧ (ready 0x25 [0x111]).eif = true) ∧ (ready 0x25 [0x111]).eti = true ∧
    (ready 0x25 [0x111]).tf = true :=
  ⟨⟨rfl, rfl, rfl, rfl⟩, rfl, by decide, rfl, rfl, ⟨rfl, rfl, rfl, rfl⟩, rfl, by decide, by decide, rfl, rfl⟩
theorem witness_MaskOrFullStackHoldsInterrupts : (Running (ready 0x36 []) ∧ (ready 0x36 []).emi = false) ∧
    (Running (ready 0x37 [0x111, 0x222]) ∧ 2 ≤ (ready 0x37 [0x111, 0x222]).stack.length) ∧
    (Running (ready 0x15 []) ∧ ¬((ready 0x15 []).eei = true ∧ (ready 0x15 []).eif = true) ∧
      ¬((ready 0x15 []).eti = true ∧ (ready 0x15 []).tf = true)) :=
  ⟨⟨⟨rfl, rfl, rfl, rfl⟩, rfl⟩, ⟨⟨rfl, rfl, rfl, rfl⟩, by decide⟩, ⟨⟨rfl, rfl, rfl, rfl⟩, by decide, by decide⟩⟩
theorem witness_TimerOverflowPeriod : 255 < 256 - State.reset.tmrCnt.toNat ∧ 0 < 256 - (edge 0x00 0xFF true).tmrCnt.toNat := by decide
theorem witness_TimerCountsItsClock : (∀ tmrc ∈ [0x90#8, 0x10#8, 0x58#8, 0xD8#8, 0x80#8], ∀ r h : Bool,
    wdtOnInstrClock { edge tmrc 0x00 true with pwmRun := r, halted := h } = false) ∧
    (edge 0x90 0x00 true).tm1 = true ∧ (edge 0x90 0x00 true).tm0 = false ∧ (edge 0x90 0x00 true).ton = true ∧
    (edge 0xD8 0x00 true).tm1 = true ∧ (edge 0xD8 0x00 true).tm0 = true ∧ (edge 0xD8 0x00 true).pwmRun = false ∧
    (edge 0x58 0x00 true).tm1 = false ∧ (edge 0x58 0x00 true).tm0 = true ∧ (edge 0x80 0x00 true).ton = false ∧
    (edge 0x10 0x00 true).tm1 = false ∧ (edge 0x10 0x00 true).tm0 = false ∧ (edge 0x10 0x00 true).ton = true ∧
    ({ edge 0x90 0x00 true with option := 0x1200, halted := true } : State).halted = true := by decide
theorem witness_TimerCountsItsClock_edges : (∀ tmrc ∈ [0x90#8, 0x10#8, 0x40#8], (edge tmrc 0x00 true).resPad = true ∧
    (edge tmrc 0x00 true).tmrPad = !false ∧ (edge tmrc 0x00 false).tmrPad = !true) ∧
    ((edge 0x90 0x00 true).tm1 = true ∧ (edge 0x90 0x00 true).tm0 = false) ∧
    ((edge 0x40 0x00 true).tm1 = false ∧ (edge 0x40 0x00 true).ton = false) ∧
    (edge 0x10 0x00 true).tm1 = false ∧ (edge 0x10 0x00 true).tm0 = false ∧ (edge 0x10 0x00 true).ton = true ∧
    ({ edge 0x10 0x00 true with tf := true } : State).tf = true := by decide
theorem witness_EventCountEdges : (edge 0x58 0xFF true).resPad = true ∧ (edge 0x58 0xFF true).tm1 = false ∧
    (edge 0x58 0xFF true).tm0 = true ∧ (edge 0x58 0xFF true).ton = true ∧ (edge 0x58 0xFF true).tmrPad = !false ∧
    false ≠ (edge 0x58 0xFF true).te ∧ (edge 0x58 0xFF true).tmrCnt = 0xFF ∧ (edge 0x58 0xFE true).tmrCnt ≠ 0xFF ∧
    (edge 0x58 0xFF false).tmrPad = !true ∧ true = (edge 0x58 0xFF false).te := by decide
theorem witness_PulseWidthMeasurement : (edge 0xD8 0x00 false).resPad = true ∧ (edge 0xD8 0x00 false).tm1 = true ∧
    (edge 0xD8 0x00 false).tm0 = true ∧ (edge 0xD8 0x00 false).tmrPad = !true ∧ true = (edge 0xD8 0x00 false).te ∧
    (edge 0xD8 0x00 false).ton = true ∧ (edge 0xD8 0x00 false).pwmRun = false ∧ (edge 0xD8 0x00 true).tmrPad = !false ∧
    false ≠ (edge 0xD8 0x00 true).te ∧ ({ edge 0xD8 0x00 true with pwmRun := true } : State).pwmRun = true ∧
    ¬(false = (edge 0xD8 0x00 true).te ∧ (edge 0xD8 0x00 true).ton = true ∧ (edge 0xD8 0x00 true).pwmRun = false) ∧
    ¬(false ≠ (edge 0xD8 0x00 true).te ∧ (edge 0xD8 0x00 true).pwmRun = true) := by decide
theorem witness_WatchdogTimeOutPeriod : State.reset.wdtCnt = 0 ∧ State.reset.wdtPre = 0 ∧
    32767 < 256 * 2 ^ (State.reset.wdts.toNat % 8) ∧ 255 < 256 * 2 ^ (almostOut.wdts.toNat % 8) := by decide
theorem witness_WatchdogResetsRunningCpu : wdtOnInstrClock almostOut = true ∧ almostOut.halted = false ∧ almostOut.ton = false ∧
    almostOut.pwmRun = false ∧ almostOut.wdtCnt.toNat + 256 * almostOut.wdtPre.toNat = 255 ∧
    255 < 256 * 2 ^ (almostOut.wdts.toNat % 8) ∧ 256 * 2 ^ (almostOut.wdts.toNat % 8) ≤ 255 + 1 := by decide
theorem witness_WatchdogResetsRunningCpu_fair : Fair byTurns ∧ wdtOnRc blank = true ∧ blank.halted = false ∧ blank.resPad = true ∧
    (∀ n, (∀ d, byTurns n ≠ .powerOn d) ∧ ∀ level, byTurns n ≠ .pad .res level) ∧
    ∀ n, ∃ t, runUnder decode byTurns n blank = .next t ∧
      ∀ i, decode t.option (fetch t) = .instr i → i ∉ [.halt, .clrWdt, .clrWdt1, .clrWdt2] := by
  refine ⟨fair_byTurns, rfl, rfl, rfl, fun n => ?_, fun n => ?_⟩
  · unfold byTurns
    split <;> simp
  · obtain ⟨t, ht, hp, _⟩ := blank_runs n
    refine ⟨t, ht, fun i hi => ?_⟩
    have hd : decode t.option (fetch t) = .instr .nop := by
      simp only [fetch, progRead, hp]
      rfl
    rw [hd] at hi
    obtain rfl : Instr.nop = i := by injection hi
    decide
theorem witness_ResetKinds : State.reset.resPad = true ∧ State.reset.halted = false ∧
    ({ before with halted := true } : State).resPad = true ∧ ({ before with halted := true } : State).halted = true := by decide
theorem witness_ResLowHoldsChip : ({ State.reset with resPad := false } : State).resPad = false ∧
    optionWellFormed ({ State.reset with resPad := false } : State).option = true ∧
    ({ State.reset with resPad := false } : State).env = [] := by decide
theorem witness_IntEdgeRequestsAndWakes : State.reset.resPad = true ∧ State.reset.intPad = true ∧
    ({ State.reset with intPad := false } : State).intPad = false := by decide
theorem witness_PortAWakesFromHalt : before.pac.getLsbD (7 : Fin 8) = false ∧ State.reset.pac.getLsbD (7 : Fin 8) = true := by decide
theorem witness_HaltedCpuWaits : ({ State.reset with halted := true } : State).halted = true ∧
    optionWellFormed State.reset.option = true ∧ State.reset.env = [] ∧
    ({ State.reset with env := [.cpu, .rcTick] } : State).env = .cpu :: [.rcTick] := by decide
theorem witness_HaltedCpuWaits_fair : ({ blank with halted := true } : State).halted = true ∧ optionWellFormed blank.option = true ∧
    wdtOnRc { blank with halted := true } = true ∧ ({ blank with halted := true } : State).resPad = true ∧ Fair byTurns :=
  ⟨rfl, rfl, rfl, rfl, fair_byTurns⟩
theorem witness_StepRunsDecodedInstruction : Running (timed 0x1F40) ∧ pendingInterrupt (timed 0x1F40) = none ∧
    decode (timed 0x1F40).option (progRead (timed 0x1F40).pc (timed 0x1F40)) = .instr (.clrM 0x40) ∧
    exec (.clrM 0x40) { timed 0x1F40 with pc := (timed 0x1F40).pc + 1 } = .next { timed 0x1F40 with pc := 0x031 } :=
  ⟨⟨rfl, rfl, rfl, rfl⟩, rfl, by decide, rfl⟩
theorem witness_StepRunsDecodedInstruction_fault : Running (timed 0x0003) ∧ pendingInterrupt (timed 0x0003) = none ∧
    decode (timed 0x0003).option (progRead (timed 0x0003).pc (timed 0x0003)) = .instr .ret ∧
    exec .ret { timed 0x0003 with pc := (timed 0x0003).pc + 1 } = .fault .stackUnderflow :=
  ⟨⟨rfl, rfl, rfl, rfl⟩, rfl, by decide, rfl⟩
theorem witness_EnvironmentMovesFirst : ({ State.reset with env := [.rcTick] } : State).env = .rcTick :: [] ∧
    Event.rcTick ≠ .cpu ∧ wdtOnRc State.reset = false ∧ wdtOnRc { State.reset with option := 0x0200 } = true ∧
    State.reset.resPad = true := by decide
theorem witness_StepKeepsInvariant : State.reset.Inv ∧ step State.reset = .next { State.reset with pc := 0x001 } :=
  ⟨by constructor <;> decide, rfl⟩
theorem witness_HiddenStateHasNamedWriters : exec (.jmp 0x123) State.reset = .next { State.reset with pc := 0x123 } ∧
    Instr.jmp 0x123 ∉ [.halt, .clrWdt, .clrWdt1, .clrWdt2] ∧ Instr.jmp 0x123 ≠ .ret ∧ Instr.jmp 0x123 ≠ .reti := by
  refine ⟨rfl, by decide, by decide, by decide⟩
theorem witness_ProgramMemoryNeverWritten : step State.reset = .next { State.reset with pc := 0x001 } := rfl

end Sys2Proof.Tests
end

/-!
Proofs of the family of the state (10_state): what an instruction can do at all, the invariant, the stack, the step.
-/

section
namespace Sys2Proof.Machine

/-! ## What an instruction can do

Every instruction has one of seven effects. The frame of the hidden state, the one fault and the invariant are read off
that list; only `exec_effect` looks at the 63 instructions. -/

/-- A measurement in progress is one of mode 11 with TON = 1 (60_exceptions R426). -/
def State.Measuring (s : State) : Prop := s.pwmRun = true → s.ton = true ∧ s.tm1 = true ∧ s.tm0 = true

/-- `t` comes from `s` by writes of ACC, `pc`, flags and data memory: the hidden state is untouched, and what the invariant
says of RAM and of the timer's mode is kept. -/
structure DataEffect (s t : State) : Prop extends SameHidden s t where
  ram : ramWf s = true → ramWf t = true
  measuring : s.Measuring → t.Measuring

theorem DataEffect.refl (s : State) : DataEffect s s := ⟨SameHidden.rfl' s, id, id⟩

theorem DataEffect.trans {s t u : State} (h : DataEffect s t) (k : DataEffect t u) : DataEffect s u :=
  ⟨h.toSameHidden.trans k.toSameHidden, k.ram ∘ h.ram, k.measuring ∘ h.measuring⟩

theorem setAcc_dataEffect (v : Byte) (s : State) : DataEffect s (setAcc v s) := ⟨by constructor <;> rfl, id, id⟩

theorem setEmi_dataEffect (s : State) : DataEffect s (setEmi s) := ⟨by constructor <;> rfl, id, id⟩

theorem setPc_dataEffect (t : ProgAddr) (s : State) : DataEffect s (setPc t s) := ⟨by constructor <;> rfl, id, id⟩

theorem setFlags_dataEffect (f : FlagWrite) (s : State) : DataEffect s (setFlags f s) :=
  ⟨setFlags_sameHidden f s, id, id⟩

theorem openFlags_dataEffect (s : State) : DataEffect s (openFlags s) := ⟨by constructor <;> rfl, id, id⟩

theorem toAcc_dataEffect (r : Byte) (f : FlagWrite) (s : State) : DataEffect s (toAcc r f s) :=
  (setAcc_dataEffect r s).trans (setFlags_dataEffect f _)

theorem memWrite_dataEffect (m : DataAddr) (v : Byte) (s : State) : DataEffect s (memWrite m v s) :=
  ⟨memWrite_sameHidden m v s, memWrite_ramWf v, memWrite_measuring v⟩

theorem toMem_dataEffect (m : DataAddr) (r : Byte) (f : FlagWrite) (s : State) : DataEffect s (toMem m r f s) := by
  by_cases h : target m s = .status
  · rw [toMem_of_status h]
    exact openFlags_dataEffect s
  · rw [toMem_of_ne h]
    exact (memWrite_dataEffect m r s).trans (setFlags_dataEffect f _)

theorem skipIf_dataEffect (b : Bool) (s : State) : DataEffect s (skipIf b s) := by
  cases b with
  | false => exact DataEffect.refl s
  | true => exact setPc_dataEffect (s.pc + 1) s

theorem storeAndSkip_dataEffect (m : DataAddr) (r : Byte) (s : State) : DataEffect s (storeAndSkip m r s) := by
  unfold storeAndSkip
  split
  · exact ⟨by constructor <;> rfl, id, id⟩
  · exact (memWrite_dataEffect m r s).trans (skipIf_dataEffect _ _)

/-- The three instructions that pop the stack (46_branch R297 to R299). -/
def IsReturn (i : Instr) : Prop := i = .ret ∨ i = .reti ∨ ∃ x, i = .retAX x

/-- The effects an instruction can have, each with the instructions that may have it. -/
inductive ExecEffect (i : Instr) (s : State) : Host.Outcome State Fault Refusal → Prop where
  /-- Writes of data alone. -/
  | data {t : State} (ht : DataEffect s t) : ExecEffect i s (.next t)
  /-- A table read: a write of data, and of TBLH (10_state R58). -/
  | table {m : DataAddr} {t : State} {v : BitVec 6} (hi : i = .tabrdcM m ∨ i = .tabrdlM m) (ht : DataEffect s t) :
      ExecEffect i s (.next { t with tblh := v })
  /-- A call pushes (10_state R40). -/
  | call {addr : ProgAddr} (hi : i = .call addr) : ExecEffect i s (.next (setPc addr (push s.pc s)))
  /-- A return takes the last entry off the stack (10_state R41). -/
  | ret {rest : List ProgAddr} {a : ProgAddr} {t : State} (hi : IsReturn i) (hs : s.stack = rest ++ [a])
      (ht : DataEffect { s with stack := rest, pc := a } t) : ExecEffect i s (.next t)
  /-- A return with the stack empty (10_state R41, log 12). -/
  | underflow (hi : IsReturn i) (hs : s.stack = []) : ExecEffect i s (.fault .stackUnderflow)
  /-- A clearing instruction may write the WDT, TO, PD and the marks (48_misc R324 to R326). -/
  | clearing {pd timedOut cw1 cw2 : Bool} {cnt : Byte} {pre : BitVec 7} (hi : i ∈ [.clrWdt, .clrWdt1, .clrWdt2])
      (hm : (s.cw1 && s.cw2) = false → (cw1 && cw2) = false) :
      ExecEffect i s
        (.next { s with pd := pd, timedOut := timedOut, wdtCnt := cnt, wdtPre := pre, cw1 := cw1, cw2 := cw2 })
  /-- `HALT` (48_misc R329). -/
  | halt (hi : i = .halt) :
      ExecEffect i s (.next { clearWdt s with pd := true, timedOut := false, halted := true })

/-- A return with the stack empty faults (10_state R41). -/
theorem returnThen_nil (f : State → State) {s : State} (h : s.stack = []) :
    returnThen f s = .fault .stackUnderflow := by
  simp [returnThen, pop, h]

theorem returnThen_effect {i : Instr} (hi : IsReturn i) {f : State → State} (hf : ∀ u, DataEffect u (f u)) (s : State) :
    ExecEffect i s (returnThen f s) := by
  rcases List.eq_nil_or_concat' s.stack with h | ⟨rest, a, h⟩
  · rw [returnThen_nil f h]
    exact .underflow hi h
  · rw [returnThen_concat f h]
    exact .ret hi h (hf _)

theorem tableRead_effect {i : Instr} {m : DataAddr} (hi : i = .tabrdcM m ∨ i = .tabrdlM m) (t : ProgAddr) (s : State) :
    ExecEffect i s (.next (tableRead t m s)) :=
  .table hi (memWrite_dataEffect m _ s)

theorem execClrWdt_effect (s : State) : ExecEffect .clrWdt s (execClrWdt s) := by
  unfold execClrWdt
  split
  · exact .clearing (by simp) id
  · exact .data (.refl s)

theorem execClrWdt1_effect (s : State) : ExecEffect .clrWdt1 s (execClrWdt1 s) := by
  unfold execClrWdt1
  split
  · split
    · exact .clearing (by simp) fun _ => rfl
    · next h => exact .clearing (by simp) fun _ => by simp [h]
  · exact .data (.refl s)

theorem execClrWdt2_effect (s : State) : ExecEffect .clrWdt2 s (execClrWdt2 s) := by
  unfold execClrWdt2
  split
  · split
    · exact .clearing (by simp) fun _ => rfl
    · next h => exact .clearing (by simp) fun _ => by simp [h]
  · exact .data (.refl s)

/-- Every instruction has one of the effects of `ExecEffect`, whatever the state. -/
theorem exec_effect (i : Instr) (s : State) : ExecEffect i s (exec i s) :=
  match i with
  -- a result with flags to ACC
  | .addAM _ | .addAX _ | .adcAM _ | .subAX _ | .subAM _ | .sbcAM _ | .andAM _ | .orAM _ | .xorAM _ | .andAX _ | .orAX _
  | .xorAX _ | .cplaM _ | .incaM _ | .decaM _ | .rrcaM _ | .rlcaM _ => .data (toAcc_dataEffect _ _ s)
  -- a result with flags to memory
  | .addmAM m | .adcmAM m | .submAM m | .sbcmAM m | .daaM m | .andmAM m | .ormAM m | .xormAM m | .cplM m | .incM m
  | .decM m | .rrcM m | .rlcM m => .data (toMem_dataEffect m _ _ s)
  -- a byte to ACC
  | .rraM _ | .rlaM _ | .movAM _ | .movAX _ | .swapaM _ => .data (setAcc_dataEffect _ s)
  -- a byte to memory
  | .rrM m | .rlM m | .movMA m | .clrMI m _ | .setMI m _ | .clrM m | .setM m | .swapM m =>
    .data (memWrite_dataEffect m _ s)
  -- control
  | .nop => .data (.refl s)
  | .jmp addr => .data (setPc_dataEffect addr s)
  | .szM _ | .szMI _ _ | .snzMI _ _ => .data (skipIf_dataEffect _ s)
  | .szaM _ | .sizaM _ | .sdzaM _ => .data ((setAcc_dataEffect _ s).trans (skipIf_dataEffect _ _))
  | .sizM m | .sdzM m => .data (storeAndSkip_dataEffect m _ s)
  -- the stack
  | .call _ => .call rfl
  | .ret => returnThen_effect (.inl rfl) DataEffect.refl s
  | .reti => returnThen_effect (.inr (.inl rfl)) setEmi_dataEffect s
  | .retAX x => returnThen_effect (.inr (.inr ⟨x, rfl⟩)) (setAcc_dataEffect x) s
  -- TBLH, the watchdog and HALT mode
  | .tabrdcM _ => tableRead_effect (.inl rfl) _ s
  | .tabrdlM _ => tableRead_effect (.inr rfl) _ s
  | .clrWdt => execClrWdt_effect s
  | .clrWdt1 => execClrWdt1_effect s
  | .clrWdt2 => execClrWdt2_effect s
  | .halt => .halt rfl

/-- A return with the stack empty faults, whichever of the three it is. -/
theorem exec_return_nil {i : Instr} (hi : IsReturn i) {s : State} (hs : s.stack = []) :
    exec i s = .fault .stackUnderflow := by
  rcases hi with rfl | rfl | ⟨x, rfl⟩
  · exact returnThen_nil id hs
  · exact returnThen_nil setEmi hs
  · exact returnThen_nil (setAcc x) hs

/-! ## The invariant -/

theorem DataEffect.keeps_inv {s t : State} (h : DataEffect s t) (hs : s.Inv) : t.Inv where
  stackDepth := h.stack ▸ hs.stackDepth
  ram := h.ram hs.ram
  program := by rw [programWf, h.program]; exact hs.program
  haltFlags := by rw [h.halted, h.pd, h.timedOut]; exact hs.haltFlags
  measuring := h.measuring hs.measuring
  marks := by rw [h.cw1, h.cw2]; exact hs.marks
  resHeld := by rw [h.resPad, h.halted]; exact hs.resHeld

/-- An instruction of a CPU that runs keeps the invariant. HALT and the clearing instructions need that it does run. -/
theorem exec_keeps_inv {i : Instr} {s t : State} (hs : s.Inv) (hrun : s.halted = false) (hres : s.resPad = true)
    (h : exec i s = .next t) : t.Inv := by
  have he := exec_effect i s
  rw [h] at he
  cases he with
  | data ht => exact ht.keeps_inv hs
  | table _ ht => exact { ht.keeps_inv hs with }
  | call _ => exact { hs with stackDepth := push_length s.pc s }
  | @ret rest a _ _ hstack ht =>
    have hlen : rest.length ≤ 2 := by
      have := hs.stackDepth
      rw [hstack, List.length_append] at this
      omega
    exact ht.keeps_inv { hs with stackDepth := hlen }
  | clearing _ hm => exact { hs with haltFlags := fun hh => absurd hh (by simp [hrun]), marks := hm hs.marks }
  | halt _ => exact { hs with haltFlags := fun _ => ⟨rfl, rfl⟩, resHeld := fun hr => absurd hr (by simp [hres]) }

/-- Interrupt entry keeps the invariant. -/
theorem acknowledge_keeps_inv (src : IntSource) {s : State} (hs : s.Inv) : (acknowledge src s).Inv :=
  { hs with stackDepth := push_length s.pc s }

/-- A reset meets the invariant whatever the HALT mode, the marks and the stack were before. -/
theorem applyReset_inv (k : ResetKind) {s : State} (hram : ramWf s = true) (hprog : programWf s = true)
    (hm : s.Measuring) : (applyReset k s).Inv := by
  cases k with
  | powerOn d =>
    have hdraw : Memory.wf 0x40 0x80 (Memory.ofList 0x40 (d.ram.take 64)) = true :=
      wf_ofList _ _ (by rw [List.length_take]; omega)
    exact ⟨Nat.zero_le 2, hdraw, hprog, nofun, nofun, rfl, fun _ => rfl⟩
  | resNormal | resHalt | wdtNormal => exact ⟨Nat.zero_le 2, hram, hprog, nofun, nofun, rfl, fun _ => rfl⟩
  | wdtHalt => exact ⟨Nat.zero_le 2, hram, hprog, nofun, hm, rfl, fun _ => rfl⟩

theorem timerClock_keeps_inv {s : State} (hs : s.Inv) : (timerClock s).Inv := by
  rw [timerClock_frame]
  exact { hs with }

theorem wdtTick_keeps_inv {s : State} (hs : s.Inv) : (wdtTick s).1.Inv := by
  rcases wdtTick_cases s with e | ⟨cnt, pre, e⟩ <;> rw [e]
  · exact applyReset_inv _ hs.ram hs.program hs.measuring
  · exact { hs with }

theorem applyTicks_keeps_inv (n : Nat) {s : State} (hs : s.Inv) : (applyTicks n s).Inv :=
  applyTicks_induction (P := State.Inv) (fun _ => timerClock_keeps_inv) (fun _ => wdtTick_keeps_inv) n s hs

/-- Mode 11 is pulse width mode (60_exceptions R421, D13). -/
theorem timerMode_eq_pulseWidth {s : State} : timerMode s = .pulseWidth ↔ s.tm1 = true ∧ s.tm0 = true := by
  cases h1 : s.tm1 <;> cases h0 : s.tm0 <;> simp [timerMode, h1, h0]

theorem timerTick_measuring {s : State} (hs : s.Measuring) : (timerTick s).Measuring := by
  obtain ⟨-, e⟩ | ⟨-, e⟩ := timerTick_cases s <;> rw [e] <;> exact hs

/-- The edge that starts a measurement finds mode 11 with TON = 1, the edge that clears TON ends it (60_exceptions R426). -/
theorem timerEdge_measuring (level : Bool) {s : State} (hs : s.Measuring) : (timerEdge level s).Measuring := by
  unfold timerEdge
  split
  · split
    · exact timerTick_measuring hs
    · exact hs
  · next hmode =>
    split
    · next hstart =>
      simp only [Bool.and_eq_true] at hstart
      obtain ⟨⟨hton, -⟩, -⟩ := hstart
      exact fun _ => ⟨hton, timerMode_eq_pulseWidth.mp hmode⟩
    · split
      · exact nofun
      · exact hs
  · exact hs
  · split <;> exact hs

theorem timerEdge_keeps_inv (level : Bool) {s : State} (hs : s.Inv) : (timerEdge level s).Inv := by
  have hm := timerEdge_measuring level hs.measuring
  rw [timerEdge_frame] at hm ⊢
  exact { hs with measuring := hm }

/-- Leaving HALT mode keeps the invariant. -/
theorem State.Inv.awake {s : State} (hs : s.Inv) : State.Inv { s with halted := false } :=
  { hs with haltFlags := nofun, resHeld := fun _ => rfl }

theorem wakeOnRequest_keeps_inv (s : State) {t : State} (ht : t.Inv) : (wakeOnRequest s t).Inv := by
  unfold wakeOnRequest
  split
  · exact ht.awake
  · exact ht

theorem setIntPad_keeps_inv (level : Bool) {s : State} (hs : s.Inv) : (setIntPad level s).Inv := by
  unfold setIntPad
  split
  · exact wakeOnRequest_keeps_inv s { hs with }
  · exact { hs with }

theorem setTmrPad_keeps_inv (level : Bool) {s : State} (hs : s.Inv) : (setTmrPad level s).Inv := by
  unfold setTmrPad
  split
  · exact wakeOnRequest_keeps_inv s (timerEdge_keeps_inv level { hs with })
  · exact { hs with }

/-- RES going low resets, so the chip is not halted while RES is low (70_reset R503). -/
theorem setResPad_keeps_inv (level : Bool) {s : State} (hs : s.Inv) : (setResPad level s).Inv := by
  unfold setResPad
  split
  · exact applyReset_inv _ hs.ram hs.program hs.measuring
  · next hedge =>
    exact { hs with resHeld := fun (hl : level = false) => hs.resHeld (by simpa [hl] using hedge) }

theorem setPaPad_keeps_inv (i : Fin 8) (level : Bool) {s : State} (hs : s.Inv) : (setPaPad i level s).Inv := by
  unfold setPaPad
  split
  · exact
      { hs with
        haltFlags := fun h => hs.haltFlags (Bool.and_eq_true_iff.mp h).1
        resHeld := fun h => by simp [hs.resHeld h] }
  · exact hs

theorem setPbPad_keeps_inv (i : Fin 8) (level : Bool) {s : State} (hs : s.Inv) : (setPbPad i level s).Inv := by
  unfold setPbPad
  split
  · exact { hs with }
  · exact hs

theorem setPcPad_keeps_inv (i : Fin 2) (level : Bool) {s : State} (hs : s.Inv) : (setPcPad i level s).Inv := by
  unfold setPcPad
  split
  · exact { hs with }
  · exact hs

theorem setPad_keeps_inv (p : Pad) (level : Bool) {s : State} (hs : s.Inv) : (setPad p level s).Inv :=
  match p with
  | .int => setIntPad_keeps_inv level hs
  | .tmr => setTmrPad_keeps_inv level hs
  | .res => setResPad_keeps_inv level hs
  | .pa i => setPaPad_keeps_inv i level hs
  | .pb i => setPbPad_keeps_inv i level hs
  | .pc i => setPcPad_keeps_inv i level hs

theorem rcTick_keeps_inv {s : State} (hs : s.Inv) : (rcTick s).Inv := by
  unfold rcTick
  split
  · exact wdtTick_keeps_inv hs
  · exact hs

/-- Every move of the environment keeps the invariant. -/
theorem envStep_keeps_inv (e : Event) {s : State} (hs : s.Inv) : (envStep e s).Inv :=
  match e with
  | .cpu => hs
  | .pad p level => setPad_keeps_inv p level hs
  | .rcTick => rcTick_keeps_inv hs
  | .powerOn draw => applyReset_inv (.powerOn draw) hs.ram hs.program hs.measuring

/-- The CPU's step keeps the invariant, under any encoding. -/
theorem cpuStep_keeps_inv {enc : Enc} {s t : State} (hs : s.Inv) (h : cpuStep enc s = .next t) : t.Inv := by
  obtain ⟨-, ⟨-, rfl⟩ | ⟨hfree, ⟨src, -, rfl⟩ | ⟨i, u, -, -, hexec, rfl⟩⟩⟩ := cpuStep_next h
  · exact hs
  · exact applyTicks_keeps_inv _ (acknowledge_keeps_inv src hs)
  · obtain ⟨hrun, hres⟩ : s.halted = false ∧ s.resPad = true := by simpa using hfree
    have hadv : (advance s).Inv := { hs with }
    exact applyTicks_keeps_inv _ (exec_keeps_inv hadv hrun hres hexec)

/-- One move, of either agent and under any encoding, keeps the invariant. -/
theorem nextMove_keeps_inv {enc : Enc} {s t : State} (hs : s.Inv) (h : nextMove enc s = .next t) : t.Inv := by
  obtain ⟨e, rest, -, -, rfl⟩ | ⟨u, hu, hcpu⟩ := nextMove_next h
  · exact envStep_keeps_inv e { hs with }
  · have huInv : u.Inv := by
      obtain ⟨rfl, -⟩ | ⟨rest, -, rfl⟩ := hu
      · exact hs
      · exact { hs with }
    exact cpuStep_keeps_inv huInv hcpu

/-! ## The step of a running CPU -/

section
open Sys2Proof.Claims

/-- With no ready interrupt the step of a running CPU runs one instruction. -/
theorem nextMove_of_running (enc : Enc) {s : State} (h : Running s) (hp : pendingInterrupt s = none) :
    nextMove enc s = runInstruction enc s := by
  obtain ⟨henv, hrun, hres, hopt⟩ := h
  simp [nextMove, cpuStep, henv, hrun, hres, hopt, hp]

theorem runInstruction_next {enc : Enc} {s t : State} {i : Instr} (hd : enc s.option (fetch s) = .instr i)
    (h : exec i (advance s) = .next t) : runInstruction enc s = .next (applyTicks (cycles i (advance s)) t) := by
  simp [runInstruction, hd, h]

theorem runInstruction_fault {enc : Enc} {s : State} {i : Instr} {r : Fault} (hd : enc s.option (fetch s) = .instr i)
    (h : exec i (advance s) = .fault r) : runInstruction enc s = .fault r := by
  simp [runInstruction, hd, h]

theorem nextMove_runsDecoded (enc : Enc) : RunsDecoded enc (nextMove enc) := by
  intro s i hrun hp hd
  rw [nextMove_of_running enc hrun hp]
  exact ⟨fun _ h => runInstruction_next hd h, fun _ h => runInstruction_fault hd h⟩

/-! ## STATUS written as data and as flags -/

/-- A destination that is STATUS is not PCL: no second cycle (70_reset R546). -/
theorem pclCycle_of_status {m : DataAddr} {s : State} (h : target m s = .status) : pclCycle m s = 0 := by
  simp [pclCycle, h]

/-- Whatever the result and the flags are, an instruction that delivers them by `toMem` to STATUS leaves the flags open. -/
theorem statusDoubleWrite_of_toMem {i : Instr} {m : DataAddr} {r : Byte} {f : FlagWrite} {s : State}
    (h : target m s = .status) (hc : cycles i s = 1 + pclCycle m s) (he : exec i s = .next (toMem m r f s)) :
    StatusDoubleWrite i s := by
  rw [pclCycle_of_status h] at hc
  rw [toMem_of_status h] at he
  exact ⟨hc, openFlags s, he, rfl⟩

end

end Sys2Proof.Machine

namespace Sys2Proof.Proofs

open Sys2Proof.Machine Sys2Proof.Claims

/-- Settles O57: one lemma per agent, `envStep_keeps_inv` and `cpuStep_keeps_inv`. -/
theorem stepKeepsInvariant : Obligations.StepKeepsInvariant :=
  fun _ _ hs h => nextMove_keeps_inv hs h

/-- Settles O31: of the effects of an instruction only the underflow of a return is no next state. -/
theorem onlyEmptyReturnsStop : Obligations.OnlyEmptyReturnsStop := by
  intro i s
  refine ⟨fun ⟨hi, hs⟩ => exec_return_nil hi hs, fun hne => ?_⟩
  have he := exec_effect i s
  generalize exec i s = o at he
  cases he with
  | underflow hi hs => exact absurd ⟨hi, hs⟩ hne
  | data | table | call | ret | clearing | halt => exact ⟨_, rfl⟩

/-- Settles O59: each effect but that of plain data names its instructions. -/
theorem hiddenStateHasNamedWriters : Obligations.HiddenStateHasNamedWriters := by
  intro i s t h
  have he := exec_effect i s
  rw [h] at he
  cases he with
  | data ht =>
    exact ⟨fun _ => ⟨ht.pd, ht.timedOut, ht.wdtCnt, ht.wdtPre, ht.halted, ht.cw1, ht.cw2⟩, fun _ => ht.tblh,
      fun _ _ _ => ht.stack⟩
  | @table m _ _ hi ht =>
    refine ⟨fun _ => ⟨ht.pd, ht.timedOut, ht.wdtCnt, ht.wdtPre, ht.halted, ht.cw1, ht.cw2⟩, fun hno => ?_,
      fun _ _ _ => ht.stack⟩
    exact absurd hi (not_or.mpr (hno m))
  | @call addr hi =>
    exact ⟨fun _ => ⟨rfl, rfl, rfl, rfl, rfl, rfl, rfl⟩, fun _ => rfl, fun hno => absurd hi (hno addr 0).1⟩
  | ret hi _ ht =>
    refine ⟨fun _ => ⟨ht.pd, ht.timedOut, ht.wdtCnt, ht.wdtPre, ht.halted, ht.cw1, ht.cw2⟩, fun _ => ht.tblh,
      fun hno hret hreti => ?_⟩
    obtain rfl | rfl | ⟨x, rfl⟩ := hi
    · exact absurd rfl hret
    · exact absurd rfl hreti
    · exact absurd rfl (hno 0 x).2
  | clearing hi _ => exact ⟨fun hno => absurd (List.mem_cons_of_mem _ hi) hno, fun _ => rfl, fun _ _ _ => rfl⟩
  | halt hi => exact ⟨fun hno => absurd (hi ▸ List.mem_cons_self) hno, fun _ => rfl, fun _ _ _ => rfl⟩

/-- Settles O27: all thirteen deliver their result by `toMem`. -/
theorem statusDoubleWriteIsOpen : Obligations.StatusDoubleWriteIsOpen := by
  intro m s h
  have opened {i r f} := @statusDoubleWrite_of_toMem i m r f s h
  exact ⟨opened rfl rfl, opened rfl rfl, opened rfl rfl, opened rfl rfl, opened rfl rfl, opened rfl rfl, opened rfl rfl,
    opened rfl rfl, opened rfl rfl, opened rfl rfl, opened rfl rfl, opened rfl rfl, opened rfl rfl⟩

/-- Settles O29, from the equation of the pushed stack. -/
theorem pushKeepsTwoAddresses : Obligations.PushKeepsTwoAddresses := by
  intro t s
  refine ⟨fun hlt => ?_, fun a b hab => ?_, rfl⟩
  · rw [push_stack, if_pos hlt]
  · simp [push_stack, hab]

/-- Settles O50: fields of the reset state, and reads of its registers (10_state R90). -/
theorem powerOnState : Obligations.PowerOnState := by
  unfold Obligations.PowerOnState
  decide

/-- Settles O55: `step` is the move under the default encoding. -/
theorem stepRunsDecodedInstruction : Obligations.StepRunsDecodedInstruction :=
  ⟨nextMove_runsDecoded decode, nextMove_runsDecoded⟩

/-- Settles O58. -/
theorem resetMeetsInvariant : Obligations.ResetMeetsInvariant :=
  ⟨Nat.zero_le 2, reset_memories.1, reset_memories.2, nofun, nofun, rfl, nofun⟩

end Sys2Proof.Proofs
end

/-!
Proofs of the family of the memory (20_memory): where an access leads, what is read and written there, RAM, the ports, and
that PROGRAM and OPTION are read only.
-/

section
namespace Sys2Proof.Machine

/-! ## Where an access leads (20_memory R104, R108)

An access that resolves to the address `a` is an access of `locate a`; where `a` is given by its number, `locate` computes. -/

theorem target_of_resolve {m a : DataAddr} {s : State} (h : resolve m s = some a) : target m s = locate a := by
  rw [target, h]

theorem target_of_resolve_none {m : DataAddr} {s : State} (h : resolve m s = none) : target m s = .nowhere := by
  rw [target, h]

theorem target_at {m a : DataAddr} {s : State} (h : resolve m s = some a) {n : Nat} (ha : a.toNat = n) :
    target m s = locate (BitVec.ofNat 7 n) := by
  rw [target_of_resolve h, ← ha, BitVec.ofNat_toNat, BitVec.setWidth_eq]

theorem memRead_at {m a : DataAddr} {s : State} (h : resolve m s = some a) {n : Nat} (ha : a.toNat = n) :
    memRead m s = readLoc (locate (BitVec.ofNat 7 n)) s := by
  rw [memRead, target_at h ha]

theorem memWrite_at {m a : DataAddr} {s : State} (h : resolve m s = some a) (v : Byte) {n : Nat} (ha : a.toNat = n) :
    memWrite m v s = writeLoc (locate (BitVec.ofNat 7 n)) v s := by
  rw [memWrite, target_at h ha]

/-- The addresses the chip does not have (10_state R78). -/
theorem locate_reserved : ∀ {a : DataAddr},
    a.toNat ∈ [0x02, 0x03, 0x04, 0x0C, 0x0F, 0x10, 0x11] ∨ 0x18 ≤ a.toNat ∧ a.toNat ≤ 0x3F → locate a = .reserved := by
  decide

/-- MP stands at 01H alone. -/
theorem locate_eq_mp : ∀ {a : DataAddr}, locate a = .mp → a = 0x01 := by
  decide

theorem target_reserved {m a : DataAddr} {s : State} (h : resolve m s = some a)
    (ha : a.toNat ∈ [0x02, 0x03, 0x04, 0x0C, 0x0F, 0x10, 0x11] ∨ 0x18 ≤ a.toNat ∧ a.toNat ≤ 0x3F) :
    target m s = .reserved :=
  (target_of_resolve h).trans (locate_reserved ha)

theorem target_ram_of_resolve {m a : DataAddr} {s : State} (h : resolve m s = some a) (ha : 0x40 ≤ a.toNat) :
    target m s = .ram a :=
  (target_of_resolve h).trans (if_pos ha)

/-- A direct address other than 00H is the address accessed. -/
theorem target_direct {m : DataAddr} (s : State) (h : m ≠ 0) : target m s = locate m :=
  target_of_resolve (if_pos h)

/-- An access of 00H leads to the address in MP. -/
theorem target_zero {s : State} (h : s.mp ≠ 0) : target 0 s = locate s.mp :=
  target_of_resolve (if_pos h)

/-- With MP = 00H an access of 00H leads nowhere. -/
theorem target_zero_of_mp_zero {s : State} (h : s.mp = 0) : target 0 s = .nowhere :=
  target_of_resolve_none (if_neg (not_not_intro h))

/-- Of the state an access depends on MP alone. -/
theorem target_congr {s t : State} (h : t.mp = s.mp) (m : DataAddr) : target m t = target m s := by
  rw [target, target, resolve, resolve, h]

/-- TMR written while it counts: the preload register alone (10_state R62). -/
theorem writeLoc_tmr_of_ton {s : State} (h : s.ton = true) (v : Byte) : writeLoc .tmr v s = { s with tmrPre := v } := by
  rw [writeLoc, h]
  rfl

/-- TMR written while it stands: the preload register and the counter. -/
theorem writeLoc_tmr_of_not_ton {s : State} (h : s.ton = false) (v : Byte) :
    writeLoc .tmr v s = { s with tmrPre := v, tmrCnt := v } := by
  rw [writeLoc, h]
  rfl

/-- Only a write that reaches MP changes MP. -/
theorem memWrite_mp {m : DataAddr} {s : State} (h : target m s ≠ .mp) (v : Byte) : (memWrite m v s).mp = s.mp := by
  unfold memWrite
  generalize target m s = l at h ⊢
  cases l with
  | mp => exact absurd rfl h
  | _ => rfl

/-! ## The bytes a read puts together -/

/-- Two words side by side, as a number. -/
theorem toNat_append_eq_add {v w : Nat} (x : BitVec v) (y : BitVec w) : (x ++ y).toNat = 2 ^ w * x.toNat + y.toNat := by
  rw [BitVec.toNat_append, ← Nat.shiftLeft_add_eq_or_of_lt y.isLt, Nat.shiftLeft_eq, Nat.mul_comm]

theorem toNat_zero_append {w : Nat} (v : Nat) (y : BitVec w) : (0#v ++ y).toNat = y.toNat := by
  simp

theorem statusByte_toNat (s : State) : (statusByte s).toNat =
    32 * s.timedOut.toNat + 16 * s.pd.toNat + 8 * s.ov.toNat + 4 * s.z.toNat + 2 * s.ac.toNat + s.c.toNat := by
  simp only [statusByte, toNat_append_eq_add, BitVec.toNat_ofBool, BitVec.toNat_ofNat]
  omega

theorem intcByte_toNat (s : State) : (intcByte s).toNat =
    32 * s.tf.toNat + 16 * s.eif.toNat + 4 * s.eti.toNat + 2 * s.eei.toNat + s.emi.toNat := by
  simp only [intcByte, toNat_append_eq_add, BitVec.toNat_ofBool, BitVec.toNat_ofNat]
  omega

theorem tmrcByte_toNat (s : State) : (tmrcByte s).toNat =
    128 * s.tm1.toNat + 64 * s.tm0.toNat + 16 * s.ton.toNat + 8 * s.te.toNat := by
  simp only [tmrcByte, toNat_append_eq_add, BitVec.toNat_ofBool, BitVec.toNat_ofNat]
  omega

/-- Each bit of a port read comes from the pad or from the latch, as its control bit says (20_memory R112). -/
theorem portRead_getLsbD {w : Nat} (ctl pads latch : BitVec w) (k : Nat) :
    (portRead ctl pads latch).getLsbD k = if ctl.getLsbD k then pads.getLsbD k else latch.getLsbD k := by
  by_cases hk : k < w
  · simp only [portRead, BitVec.getLsbD_or, BitVec.getLsbD_and, BitVec.getLsbD_not]
    cases ctl.getLsbD k <;> simp [hk]
  · simp [portRead, BitVec.getLsbD_of_ge _ _ (Nat.le_of_not_lt hk)]

/-! ## RAM -/

/-- A write to RAM changes the RAM list alone. -/
theorem memWrite_of_ram {m a : DataAddr} {s : State} (h : target m s = .ram a) (v : Byte) :
    memWrite m v s = { s with ram := (memWrite m v s).ram } := by
  rw [memWrite, h]
  rfl

/-- A write to one byte of RAM leaves every other as it was. -/
theorem ramAt_memWrite_ne {m a b : DataAddr} {s : State} (h : target m s = .ram a) (hb : b ≠ a) (v : Byte) :
    ramAt (memWrite m v s) b = ramAt s b := by
  refine ramAt_memWrite_other v ?_
  rw [h]
  exact fun e => hb (Loc.ram.inj e).symm

/-- After a write to RAM every access leads where it led before. -/
theorem target_memWrite_of_ram {m a : DataAddr} {s : State} (h : target m s = .ram a) (v : Byte) (n : DataAddr) :
    target n (memWrite m v s) = target n s := by
  refine target_congr (memWrite_mp ?_ v) n
  rw [h]
  nofun

theorem memRead_of_ram {m a : DataAddr} {s : State} (h : target m s = .ram a) : memRead m s = ramAt s a := by
  rw [memRead, h]
  rfl

/-! ## The two PROMs are never written (20_memory R101, 10_state R75, R76) -/

/-- PROGRAM and OPTION are in `t` what they are in `s`. -/
def SameProms (s t : State) : Prop := t.program = s.program ∧ t.option = s.option

theorem SameProms.refl (s : State) : SameProms s s := ⟨rfl, rfl⟩

theorem SameProms.trans {s t u : State} (h : SameProms s t) (k : SameProms t u) : SameProms s u :=
  ⟨k.1.trans h.1, k.2.trans h.2⟩

theorem SameHidden.sameProms {s t : State} (h : SameHidden s t) : SameProms s t := ⟨h.program, h.option⟩

theorem exec_sameProms {i : Instr} {s t : State} (h : exec i s = .next t) : SameProms s t := by
  have he := exec_effect i s
  rw [h] at he
  cases he with
  | data ht => exact ht.sameProms
  | table _ ht => exact ht.sameProms
  | ret _ _ ht => exact ht.sameProms
  | call | clearing | halt => exact .refl s

theorem wdtTick_sameProms (s : State) : SameProms s (wdtTick s).1 := by
  obtain e | ⟨cnt, pre, e⟩ := wdtTick_cases s <;> rw [e]
  · exact applyReset_proms _ s
  · exact .refl s

theorem cpuStep_sameProms {enc : Enc} {s t : State} (h : cpuStep enc s = .next t) : SameProms s t := by
  obtain ⟨-, ⟨-, rfl⟩ | ⟨-, ⟨src, -, rfl⟩ | ⟨i, u, -, -, hexec, rfl⟩⟩⟩ := cpuStep_next h
  · exact .refl t
  · exact applyTicks_proms _ (acknowledge src s)
  · exact (exec_sameProms (s := advance s) hexec).trans (applyTicks_proms _ u)

theorem wakeOnRequest_sameProms (s t : State) : SameProms t (wakeOnRequest s t) := by
  unfold wakeOnRequest
  split <;> exact .refl t

theorem timerEdge_sameProms (level : Bool) (s : State) : SameProms s (timerEdge level s) := by
  rw [timerEdge_frame]
  exact .refl s

theorem setPad_sameProms (p : Pad) (level : Bool) (s : State) : SameProms s (setPad p level s) := by
  cases p with
  | int =>
    show SameProms s (setIntPad level s)
    unfold setIntPad
    split
    · exact wakeOnRequest_sameProms s { s with intPad := level, eif := true }
    · exact .refl s
  | tmr =>
    show SameProms s (setTmrPad level s)
    unfold setTmrPad
    split
    · exact (timerEdge_sameProms level { s with tmrPad := level }).trans (wakeOnRequest_sameProms s _)
    · exact .refl s
  | res =>
    show SameProms s (setResPad level s)
    unfold setResPad
    split
    · exact applyReset_proms _ { s with resPad := level }
    · exact .refl s
  | pa i =>
    show SameProms s (setPaPad i level s)
    unfold setPaPad
    split <;> exact .refl s
  | pb i =>
    show SameProms s (setPbPad i level s)
    unfold setPbPad
    split <;> exact .refl s
  | pc i =>
    show SameProms s (setPcPad i level s)
    unfold setPcPad
    split <;> exact .refl s

theorem rcTick_sameProms (s : State) : SameProms s (rcTick s) := by
  unfold rcTick
  split
  · exact wdtTick_sameProms s
  · exact .refl s

theorem envStep_sameProms (e : Event) (s : State) : SameProms s (envStep e s) :=
  match e with
  | .cpu => .refl s
  | .pad p level => setPad_sameProms p level s
  | .rcTick => rcTick_sameProms s
  | .powerOn draw => applyReset_proms (.powerOn draw) s

/-- No move writes a PROM, whoever moves and under any encoding. -/
theorem nextMove_sameProms {enc : Enc} {s t : State} (h : nextMove enc s = .next t) : SameProms s t := by
  obtain ⟨e, rest, -, -, rfl⟩ | ⟨u, ⟨rfl, -⟩ | ⟨rest, -, rfl⟩, hcpu⟩ := nextMove_next h
  · exact envStep_sameProms e { s with env := rest }
  · exact cpuStep_sameProms hcpu
  · exact cpuStep_sameProms (s := { s with env := rest }) hcpu

end Sys2Proof.Machine

namespace Sys2Proof.Proofs

open Sys2Proof.Machine Sys2Proof.Claims

/-- Settles O6: the address reached computes the location, and a location's read is one field or one byte put together. -/
theorem dataReadMap : Obligations.DataReadMap := by
  intro m s
  refine ⟨fun hnone => ?_, fun a h => ?_⟩
  · rw [memRead, target_of_resolve_none hnone]
    rfl
  have read {n : Nat} := @memRead_at m a s h n
  have number {n : Nat} (ha : a.toNat = n) := congrArg BitVec.toNat (read ha)
  refine ⟨fun ha => (number ha).trans (toNat_append_eq_add 1#1 s.mp), read,
    fun ha => (number ha).trans (BitVec.extractLsb'_toNat 0 8 s.pc), read,
    fun ha => (number ha).trans (toNat_zero_append 2 s.tblh), read,
    fun ha => (number ha).trans (statusByte_toNat s), fun ha => (number ha).trans (intcByte_toNat s), read,
    fun ha => (number ha).trans (tmrcByte_toNat s), read, read,
    fun ha => (number ha).trans (toNat_zero_append 6 s.pcc), fun ha => ?_, fun ha => ?_⟩
  · rw [memRead, target_reserved h ha]
    rfl
  · exact memRead_of_ram (target_ram_of_resolve h ha)

/-- Settles O7: as for O6, with the location's write. -/
theorem dataWriteMap : Obligations.DataWriteMap := by
  intro m v s
  refine ⟨fun hnone => ?_, fun a h => ?_⟩
  · rw [memWrite, target_of_resolve_none hnone]
    rfl
  have write {n : Nat} := @memWrite_at m a s h v n
  refine ⟨fun ha => ⟨_, ?_, write ha⟩, write, fun ha => ⟨_, ?_, write ha⟩, write, write, write, write, write,
    fun ha hton => (write ha).trans (writeLoc_tmr_of_ton hton v),
    fun ha hton => (write ha).trans (writeLoc_tmr_of_not_ton hton v), fun ha => ⟨_, ?_, write ha⟩, write, write, write, write,
    fun ha => ⟨_, ?_, write ha⟩, fun ha => ⟨_, ?_, write ha⟩, fun ha => ?_, fun ha => ?_⟩
  · exact BitVec.extractLsb'_toNat 0 7 v
  · rw [toNat_append_eq_add, BitVec.extractLsb'_toNat]
    omega
  · simp only [Bool.and_eq_true]
    tauto
  · exact BitVec.extractLsb'_toNat 0 2 v
  · exact BitVec.extractLsb'_toNat 0 2 v
  · rw [memWrite, target_reserved h ha]
    rfl
  · have hram : target m s = .ram a := target_ram_of_resolve h ha
    exact ⟨ramAt_memWrite_same v hram, fun b hb => ramAt_memWrite_ne hram hb v, memWrite_of_ram hram v⟩

/-- Settles O8: 00H reaches what MP points at, and only 01H is MP. -/
theorem indirectAccessGoesThroughMp : Obligations.IndirectAccessGoesThroughMp := by
  intro v s
  refine ⟨fun h0 => ?_, fun h0 => ?_, fun h1 => memWrite_mp (fun hmp => ?_) v⟩
  · rw [memRead, memWrite, target_zero_of_mp_zero h0]
    exact ⟨rfl, rfl⟩
  · rw [memRead, memRead, memWrite, memWrite, target_zero h0, target_direct s h0]
    exact ⟨rfl, rfl⟩
  · by_cases h0 : s.mp = 0
    · rw [target_zero_of_mp_zero h0] at hmp
      cases hmp
    · rw [target_zero h0] at hmp
      exact h1 (locate_eq_mp hmp)

/-- Settles O9: a write to RAM leaves MP alone, so the same access leads to the same byte again. -/
theorem ramReadAfterWrite : Obligations.RamReadAfterWrite := by
  intro m v s a h
  have again (n : DataAddr) : target n (memWrite m v s) = target n s := target_memWrite_of_ram h v n
  have hm : target m (memWrite m v s) = .ram a := (again m).trans h
  refine ⟨?_, fun b => ?_, fun n hn hna => ?_⟩
  · rw [memRead_of_ram hm, ramAt_memWrite_same v h]
  · by_cases hb : b = a
    · rw [hb, ramAt_memWrite_same _ hm]
    · rw [ramAt_memWrite_ne hm hb, ramAt_memWrite_ne h hb]
  · have hdirect : target n s = .ram n := target_direct_ram s hn
    rw [memRead_of_ram ((again n).trans hdirect), memRead_of_ram hdirect, ramAt_memWrite_ne h hna]

/-- Settles O10: the three port reads are `portRead`, that of port C below six zeros. -/
theorem portReadTakesPadOrLatch : Obligations.PortReadTakesPadOrLatch := by
  intro m a s h k hk
  have read {n : Nat} := @memRead_at m a s h n
  refine ⟨fun ha => ?_, fun ha => ?_, fun ha => ?_⟩
  · rw [read ha]
    exact portRead_getLsbD s.pac s.paPads s.pa k
  · rw [read ha]
    exact portRead_getLsbD s.pbc s.pbPads s.pb k
  · have hread : memRead m s = 0#6 ++ portRead s.pcc s.pcPads s.portc := read ha
    rw [hread, BitVec.getLsbD_append]
    by_cases hlow : k < 2
    · rw [if_pos hlow, if_neg (Nat.not_le.mpr hlow), portRead_getLsbD]
    · rw [if_neg hlow, if_pos (Nat.le_of_not_lt hlow), BitVec.getLsbD_zero]

/-- Settles O60: `step` is the move under the default encoding. -/
theorem programMemoryNeverWritten : Obligations.ProgramMemoryNeverWritten :=
  fun _ _ h => nextMove_sameProms h

end Sys2Proof.Proofs
end

/-!
Proofs of the family of the encoding (30_encoding): the fields of a word, which words each format holds, decode against encode.
-/

section
namespace Sys2Proof

open Sys2Proof.Laws

/-! ## The two parts of a word: the row's match value and the operand field (30_encoding R151, R152)

Every mask of the table is the word of ones with its `n` low bits cleared, where `n` is the width of the operand field. -/

theorem toNat_and_highMask {v : Nat} (n : Nat) (w : BitVec v) :
    (w &&& BitVec.allOnes v <<< n).toNat = w.toNat / 2 ^ n * 2 ^ n := by
  have hmask : w &&& BitVec.allOnes v <<< n = w >>> n <<< n := by
    ext k hk
    by_cases h : k < n
    · simp [h]
    · simp [h, hk, Nat.add_sub_of_le (Nat.le_of_not_lt h)]
  rw [hmask, BitVec.toNat_shiftLeft, BitVec.toNat_ushiftRight, Nat.shiftRight_eq_div_pow, Nat.shiftLeft_eq]
  exact Nat.mod_eq_of_lt ((Nat.div_mul_le_self _ _).trans_lt w.isLt)

/-- The row and the operand field make up the word. -/
theorem masked_or_field {v : Nat} (n : Nat) (w : BitVec v) :
    w &&& BitVec.allOnes v <<< n ||| (w.extractLsb' 0 n).setWidth v = w := by
  ext k hk
  by_cases h : k < n <;> simp [h, hk]

/-- Beside a row that leaves the field's bits at 0 the operand is read back. -/
theorem field_of_row_or {v n : Nat} (hn : n ≤ v) {row : BitVec v} (h : row &&& BitVec.allOnes v <<< n = row) (x : BitVec n) :
    (row ||| x.setWidth v).extractLsb' 0 n = x := by
  ext k hk
  have hkv : k < v := hk.trans_le hn
  have hrow : row[k] = false := by
    rw [← h]
    simp [hk]
  simp [hrow, hk, hkv]

theorem toNat_and_3F80 (w : ProgWord) : (w &&& 0x3F80#14).toNat = w.toNat / 128 * 128 := toNat_and_highMask 7 w

theorem toNat_and_3F00 (w : ProgWord) : (w &&& 0x3F00#14).toNat = w.toNat / 256 * 256 := toNat_and_highMask 8 w

theorem toNat_and_3C00 (w : ProgWord) : (w &&& 0x3C00#14).toNat = w.toNat / 1024 * 1024 := toNat_and_highMask 10 w

theorem fieldM_wordM {row : ProgWord} (h : row &&& 0x3F80#14 = row) (m : DataAddr) : fieldM (wordM row m) = m :=
  field_of_row_or (by decide) h m

theorem fieldX_wordX {row : ProgWord} (h : row &&& 0x3F00#14 = row) (x : Byte) : fieldX (wordX row x) = x :=
  field_of_row_or (by decide) h x

theorem fieldAddr_wordA {row : ProgWord} (h : row &&& 0x3C00#14 = row) (addr : ProgAddr) :
    fieldAddr (wordA row addr) = addr :=
  field_of_row_or (by decide) h addr

theorem wordM_fieldM {row w : ProgWord} (h : (w &&& 0x3F80#14).toNat = row.toNat) : wordM row (fieldM w) = w := by
  rw [← BitVec.eq_of_toNat_eq h]
  exact masked_or_field 7 w

theorem wordX_fieldX {row w : ProgWord} (h : (w &&& 0x3F00#14).toNat = row.toNat) : wordX row (fieldX w) = w := by
  rw [← BitVec.eq_of_toNat_eq h]
  exact masked_or_field 8 w

theorem wordA_fieldAddr {row w : ProgWord} (h : (w &&& 0x3C00#14).toNat = row.toNat) : wordA row (fieldAddr w) = w := by
  rw [← BitVec.eq_of_toNat_eq h]
  exact masked_or_field 10 w

/-- Format B is format A with the bit number and the data address side by side. -/
theorem wordB_eq_wordA (row : ProgWord) (m : DataAddr) (i : BitVec 3) : wordB row m i = wordA row (i ++ m) := by
  have h : i.setWidth 14 <<< 7 ||| m.setWidth 14 = (i ++ m).setWidth 14 := by
    ext k hk
    rw [BitVec.getElem_setWidth, BitVec.getLsbD_append]
    by_cases h7 : k < 7
    · simp [h7]
    · simp [h7, BitVec.getLsbD_of_ge m k (Nat.le_of_not_lt h7)]
  rw [wordB, wordA, BitVec.or_assoc, h]

theorem fieldI_append_fieldM (w : ProgWord) : fieldI w ++ fieldM w = fieldAddr w :=
  BitVec.extractLsb'_append_extractLsb'_eq_extractLsb' rfl

theorem fieldM_wordB {row : ProgWord} (h : row &&& 0x3C00#14 = row) (m : DataAddr) (i : BitVec 3) :
    fieldM (wordB row m i) = m := by
  have hM (w : ProgWord) : fieldM w = (fieldAddr w).extractLsb' 0 7 := by simp [fieldM, fieldAddr]
  rw [hM, wordB_eq_wordA, fieldAddr_wordA h, BitVec.extractLsb'_append_eq_right]

theorem fieldI_wordB {row : ProgWord} (h : row &&& 0x3C00#14 = row) (m : DataAddr) (i : BitVec 3) :
    fieldI (wordB row m i) = i := by
  have hI (w : ProgWord) : fieldI w = (fieldAddr w).extractLsb' 7 3 := by simp [fieldI, fieldAddr]
  rw [hI, wordB_eq_wordA, fieldAddr_wordA h, BitVec.extractLsb'_append_eq_left]

theorem wordB_fields {row w : ProgWord} (h : (w &&& 0x3C00#14).toNat = row.toNat) :
    wordB row (fieldM w) (fieldI w) = w := by
  rw [wordB_eq_wordA, fieldI_append_fieldM, wordA_fieldAddr h]

/-! ## The words of each format (30_encoding R151, R153)

Row by row, a format's match values are a few runs of multiples of its mask's step, so the words it does not hold are a few
ranges; from these ranges follow both that no word has two formats and the reserved words. -/

theorem decodeN_eq_none_iff {opt : BitVec 14} {w : ProgWord} : decodeN opt w = none ↔ 6 ≤ w.toNat := by
  unfold decodeN
  split <;> simp only [reduceCtorEq, false_iff, true_iff, imp_false] at * <;> omega

theorem decodeM_eq_none_iff {w : ProgWord} : decodeM w = none ↔
    w.toNat < 0x80 ∨ 0x780 ≤ w.toNat ∧ w.toNat < 0x1000 ∨ 0x1C00 ≤ w.toNat ∧ w.toNat < 0x1D00 ∨
      0x1E00 ≤ w.toNat ∧ w.toNat < 0x1E80 ∨ 0x2000 ≤ w.toNat := by
  unfold decodeM
  rw [toNat_and_3F80]
  split <;> simp only [reduceCtorEq, false_iff, true_iff, imp_false] at * <;> omega

theorem decodeX_eq_none_iff {w : ProgWord} : decodeX w = none ↔ w.toNat < 0x900 ∨ 0x1000 ≤ w.toNat := by
  unfold decodeX
  rw [toNat_and_3F00]
  split <;> simp only [reduceCtorEq, false_iff, true_iff, imp_false] at * <;> omega

theorem decodeAB_eq_none_iff {w : ProgWord} : decodeAB w = none ↔
    w.toNat < 0x2000 ∨ 0x2400 ≤ w.toNat ∧ w.toNat < 0x2800 ∨ 0x2C00 ≤ w.toNat ∧ w.toNat < 0x3000 := by
  have hw := w.isLt
  unfold decodeAB
  rw [toNat_and_3C00]
  split <;> simp only [reduceCtorEq, false_iff, true_iff, imp_false] at * <;> omega

/-- `decode` is the first of the four formats that answers, else `reserved`. -/
theorem decode_eq_elim (opt : BitVec 14) (w : ProgWord) :
    decode opt w = (decodeN opt w <|> decodeM w <|> decodeX w <|> decodeAB w).elim (.reserved w) .instr := by
  unfold decode
  split
  next h =>
    rw [h]
    rfl
  next h =>
    rw [h]
    rfl

theorem decode_eq_reserved_iff {opt : BitVec 14} {w : ProgWord} : decode opt w = .reserved w ↔
    decodeN opt w = none ∧ decodeM w = none ∧ decodeX w = none ∧ decodeAB w = none := by
  rw [decode_eq_elim, ← Option.orElse_eq_none, ← Option.orElse_eq_none, ← Option.orElse_eq_none]
  cases (decodeN opt w <|> decodeM w <|> decodeX w <|> decodeAB w) <;> simp

/-- No word has two formats, so the order in which `decode` tries them does not matter. -/
theorem decode_eq_instr_iff_format {opt : BitVec 14} {w : ProgWord} {i : Instr} : decode opt w = .instr i ↔
    decodeN opt w = some i ∨ decodeM w = some i ∨ decodeX w = some i ∨ decodeAB w = some i := by
  have hdecode : decode opt w = .instr i ↔ (decodeN opt w <|> decodeM w <|> decodeX w <|> decodeAB w) = some i := by
    rw [decode_eq_elim]
    cases (decodeN opt w <|> decodeM w <|> decodeX w <|> decodeAB w) <;> simp
  rw [hdecode, Option.orElse_eq_some, Option.orElse_eq_some, Option.orElse_eq_some]
  constructor
  · tauto
  · have hw := w.isLt
    have ne_none {o : Option Instr} (h : o = some i) : o ≠ none := h ▸ Option.some_ne_none i
    rintro (h | h | h | h)
    · exact .inl h
    · have hM := mt decodeM_eq_none_iff.mpr (ne_none h)
      exact .inr ⟨decodeN_eq_none_iff.mpr (by omega), .inl h⟩
    · have hX := mt decodeX_eq_none_iff.mpr (ne_none h)
      exact .inr ⟨decodeN_eq_none_iff.mpr (by omega), .inr ⟨decodeM_eq_none_iff.mpr (by omega), .inl h⟩⟩
    · have hAB := mt decodeAB_eq_none_iff.mpr (ne_none h)
      exact .inr ⟨decodeN_eq_none_iff.mpr (by omega), .inr ⟨decodeM_eq_none_iff.mpr (by omega),
        .inr ⟨decodeX_eq_none_iff.mpr (by omega), h⟩⟩⟩

/-! ## From a word to the instruction and back (30_encoding R151, R156) -/

theorem encode_of_decodeN {opt : BitVec 14} {w : ProgWord} {i : Instr} (h : decodeN opt w = some i) :
    encode i = w ∧ i.wellFormed opt = true := by
  unfold decodeN at h
  split at h
  next hw =>
    cases h
    obtain rfl : w = 0x0001#14 := BitVec.eq_of_toNat_eq hw
    cases hopt : opt.getLsbD 9 with
    | true => exact ⟨rfl, hopt⟩
    | false => exact ⟨rfl, congrArg not hopt⟩
  all_goals cases h <;> exact ⟨(BitVec.eq_of_toNat_eq ‹_›).symm, rfl⟩

theorem encode_of_decodeM {w : ProgWord} {i : Instr} (h : decodeM w = some i) (opt : BitVec 14) :
    encode i = w ∧ i.wellFormed opt = true := by
  unfold decodeM at h
  split at h <;> cases h <;> exact ⟨wordM_fieldM ‹_›, rfl⟩

theorem encode_of_decodeX {w : ProgWord} {i : Instr} (h : decodeX w = some i) (opt : BitVec 14) :
    encode i = w ∧ i.wellFormed opt = true := by
  unfold decodeX at h
  split at h <;> cases h <;> exact ⟨wordX_fieldX ‹_›, rfl⟩

theorem encode_of_decodeAB {w : ProgWord} {i : Instr} (h : decodeAB w = some i) (opt : BitVec 14) :
    encode i = w ∧ i.wellFormed opt = true := by
  unfold decodeAB at h
  split at h
  case h_1 hw | h_2 hw => cases h; exact ⟨wordA_fieldAddr hw, rfl⟩
  case h_3 hw | h_4 hw | h_5 hw | h_6 hw => cases h; exact ⟨wordB_fields hw, rfl⟩
  case h_7 => cases h

/-- A well-formed instruction's word decodes to it: under the format's mask it is the row, its fields are the operands. -/
theorem decode_encode {opt : BitVec 14} {i : Instr} (h : i.wellFormed opt = true) : decode opt (encode i) = .instr i := by
  rw [decode_eq_instr_iff_format]
  match i, h with
  | .nop, _ | .halt, _ | .ret, _ | .reti, _ | .clrWdt2, _ => exact .inl rfl
  | .clrWdt, h => exact .inl (congrArg some (if_pos h))
  | .clrWdt1, h => exact .inl (congrArg some (if_neg (by simpa [Instr.wellFormed] using h)))
  | .addAM m, _ | .addmAM m, _ | .adcAM m, _ | .adcmAM m, _ | .subAM m, _ | .submAM m, _ | .sbcAM m, _ | .sbcmAM m, _
  | .daaM m, _ | .andAM m, _ | .orAM m, _ | .xorAM m, _ | .andmAM m, _ | .ormAM m, _ | .xormAM m, _ | .cplM m, _
  | .cplaM m, _ | .incaM m, _ | .incM m, _ | .decaM m, _ | .decM m, _ | .rraM m, _ | .rrM m, _ | .rrcaM m, _
  | .rrcM m, _ | .rlaM m, _ | .rlM m, _ | .rlcaM m, _ | .rlcM m, _ | .movAM m, _ | .movMA m, _ | .szM m, _
  | .szaM m, _ | .sizM m, _ | .sdzM m, _ | .sizaM m, _ | .sdzaM m, _ | .tabrdcM m, _ | .tabrdlM m, _ | .clrM m, _
  | .setM m, _ | .swapM m, _ | .swapaM m, _ =>
    right; left
    rw [encode, decodeM, wordM_masked _ rfl, fieldM_wordM rfl]
    rfl
  | .addAX x, _ | .subAX x, _ | .andAX x, _ | .orAX x, _ | .xorAX x, _ | .movAX x, _ | .retAX x, _ =>
    right; right; left
    rw [encode, decodeX, wordX_masked _ rfl, fieldX_wordX rfl]
    rfl
  | .jmp addr, _ | .call addr, _ =>
    right; right; right
    rw [encode, decodeAB, wordA_masked _ rfl, fieldAddr_wordA rfl]
    rfl
  | .clrMI m k, _ | .setMI m k, _ | .szMI m k, _ | .snzMI m k, _ =>
    right; right; right
    rw [encode, decodeAB, wordB_masked _ rfl, fieldM_wordB rfl, fieldI_wordB rfl]
    rfl

/-- The decoder is the inverse of the encoder on the instructions a part with this option can have. -/
theorem decode_eq_instr_iff {opt : BitVec 14} {w : ProgWord} {i : Instr} :
    decode opt w = .instr i ↔ encode i = w ∧ i.wellFormed opt = true := by
  constructor
  · intro h
    obtain hN | hM | hX | hAB := decode_eq_instr_iff_format.mp h
    · exact encode_of_decodeN hN
    · exact encode_of_decodeM hM opt
    · exact encode_of_decodeX hX opt
    · exact encode_of_decodeAB hAB opt
  · rintro ⟨rfl, h⟩
    exact decode_encode h

/-- Only `CLR WDT` and `CLR WDT1` hang on the option, and their word is 0001H (30_encoding R156). -/
theorem decode_congr_option (opt opt' : BitVec 14) {w : ProgWord} (h : w ≠ 0x0001) : decode opt w = decode opt' w := by
  have hN : decodeN opt w = decodeN opt' w := by
    unfold decodeN
    split
    next hw => exact absurd (BitVec.eq_of_toNat_eq hw) h
    all_goals rfl
  rw [decode_eq_elim, decode_eq_elim, hN]

/-- What the four formats leave over are the six ranges of 30_encoding R153. -/
theorem decode_eq_reserved_iff_inGap {opt : BitVec 14} {w : ProgWord} :
    decode opt w = .reserved w ↔ Claims.inGap w.toNat := by
  rw [decode_eq_reserved_iff, decodeN_eq_none_iff, decodeM_eq_none_iff, decodeX_eq_none_iff, decodeAB_eq_none_iff,
    Claims.inGap]
  have hw := w.isLt
  omega

end Sys2Proof

namespace Sys2Proof.Proofs

open Sys2Proof.Machine Sys2Proof.Claims

/-- Settles O1: `decode_encode`. -/
theorem decodeEncodeAgree : Obligations.DecodeEncodeAgree :=
  fun _ _ h => decode_encode h

/-- Settles O2: the other direction of `decode_eq_instr_iff`. -/
theorem decodedWordsReencode : Obligations.DecodedWordsReencode :=
  fun _ _ _ => decode_eq_instr_iff.mp

/-- Settles O3: the step of a running CPU is `runInstruction`, which refuses a word that decodes to `reserved`. -/
theorem reservedWordsRefused : Obligations.ReservedWordsRefused := by
  refine ⟨fun _ _ => decode_eq_reserved_iff_inGap, fun s hrun hp hgap => ?_⟩
  rw [step, nextMove_of_running decode hrun hp, runInstruction, decode_eq_reserved_iff_inGap.mpr hgap]

/-- Settles O4. -/
theorem wdtWordFollowsOption : Obligations.WdtWordFollowsOption :=
  ⟨fun _ => decode_eq_instr_iff_format.mpr (.inl rfl), fun opt opt' _ => decode_congr_option opt opt'⟩

/-- Settles O5: each of the words is the encoding of its instruction. -/
theorem sampleWordsDecode : Obligations.SampleWordsDecode := by
  intro opt
  refine ⟨?_, ?_, ?_, ?_, ?_, ?_, ?_, ?_, ?_, ?_, ?_, ?_, ?_, ?_⟩ <;> exact decode_eq_instr_iff.mpr ⟨rfl, rfl⟩

end Sys2Proof.Proofs
end

/-!
Proofs of the family of the arithmetic (40_arithmetic): the adder read as a sum and as a difference, the two ways a sum is
delivered, the comparison a subtraction makes, decimal adjustment.
-/

section
namespace Sys2Proof.Machine

open Sys2Proof.Claims

/-! ## The adder (40_arithmetic R200)

A subtraction adds the complement of the byte, so what the flags of a difference say is read off the flags of that sum. -/

/-- Written with the flags of `add8`, a state has the four flags of the sum. -/
theorem sumIs_setFlags_add8 (a b : Byte) (cin : Bool) (u : State) :
    SumIs a b cin (add8 a b cin).r (setFlags (sumFlags (add8 a b cin)) u) := by
  refine ⟨BitVec.toNat_ofNat _ 8, decide_eq_true_iff, decide_eq_true_iff, ?_, beq_iff_eq⟩
  have hov : (setFlags (sumFlags (add8 a b cin)) u).ov =
      (decide (128 ≤ a.toNat % 128 + b.toNat % 128 + cin.toNat) ^^ decide (256 ≤ a.toNat + b.toNat + cin.toNat)) := rfl
  rw [hov, Bool.xor_iff_ne, ne_eq, decide_eq_decide]

/-- A byte and its complement add to ones in every bit, so also in the low seven and in the low four. -/
theorem toNat_not_add (b : Byte) :
    (~~~b).toNat + b.toNat = 255 ∧ (~~~b).toNat % 128 + b.toNat % 128 = 127 ∧ (~~~b).toNat % 16 + b.toNat % 16 = 15 := by
  have hb : b.toNat < 256 := b.isLt
  have hnot : (~~~b).toNat + b.toNat = 255 := by
    rw [BitVec.toNat_not]
    omega
  generalize (~~~b).toNat = n at *
  generalize b.toNat = k at *
  omega

/-- `a + ~b + cin` is `a - b` with the borrow `1 - cin`: a carry out of a bit says that no borrow goes into it. -/
theorem differenceIs_of_sumIs {a b r : Byte} {cin : Bool} {borrow : Nat} {t : State} (h : SumIs a (~~~b) cin r t)
    (hborrow : cin.toNat + borrow = 1) : DifferenceIs a b borrow r t := by
  obtain ⟨hr, hc, hac, hov, hz⟩ := h
  obtain ⟨hnot, hnot7, hnot4⟩ := toNat_not_add b
  have hcarry : 256 ≤ a.toNat + (~~~b).toNat + cin.toNat ↔ b.toNat + borrow ≤ a.toNat := by omega
  refine ⟨?_, hc.trans hcarry, hac.trans (by omega), hov.trans (not_congr (iff_congr (by omega) hcarry)), hz⟩
  rw [hr]
  congr 1
  omega

/-- The borrow into a subtraction with carry completes C to 1 (R209). -/
theorem toNat_c_add_borrowOf (s : State) : s.c.toNat + borrowOf s = 1 := by
  unfold borrowOf
  cases s.c <;> rfl

/-! ## Results to ACC -/

theorem sumToAcc_add8 (b : Byte) (cin : Bool) (s : State) :
    SumToAcc (.next (sumToAcc (add8 s.acc b cin) s)) s b cin :=
  ⟨_, rfl, sumIs_setFlags_add8 s.acc b cin _, rfl⟩

theorem differenceToAcc_add8 (b : Byte) {cin : Bool} {borrow : Nat} (s : State) (h : cin.toNat + borrow = 1) :
    DifferenceToAcc (.next (sumToAcc (add8 s.acc (~~~b) cin) s)) s b borrow :=
  have ⟨t, ht, hsum, hframe⟩ := sumToAcc_add8 (~~~b) cin s
  ⟨t, ht, differenceIs_of_sumIs hsum h, hframe⟩

/-! ## Results to data memory -/

/-- A state with the RAM of the write of `r` to `[m]` has `r` at the byte reached, and every other byte as before. -/
theorem ramStored_of_ram_eq {m : DataAddr} {r : Byte} {s t : State} (h : t.ram = (memWrite m r s).ram) :
    RamStored m r s t := by
  intro a
  have hat : ramAt t a = ramAt (memWrite m r s) a := by rw [ramAt, ramAt, h]
  rw [hat]
  exact ⟨ramAt_memWrite_same r, ramAt_memWrite_other r⟩

/-- An instruction that takes note (1) of 70_reset R546 alone. -/
theorem one_add_pclCycle (m : DataAddr) (s : State) : 1 + pclCycle m s = storeCycles m s := by
  unfold pclCycle storeCycles
  split <;> rfl

theorem sumToMem_add8 {m : DataAddr} {s : State} (h : target m s ≠ .status) (b : Byte) (cin : Bool) :
    SumToMem (.next (sumToMem m (add8 s.acc b cin) s)) m s b cin := by
  rw [sumToMem, toMem_of_ne h]
  exact ⟨_, _, rfl, sumIs_setFlags_add8 s.acc b cin _, rfl, ramStored_of_ram_eq rfl⟩

theorem differenceToMem_add8 {m : DataAddr} {s : State} (h : target m s ≠ .status) (b : Byte) {cin : Bool} {borrow : Nat}
    (hborrow : cin.toNat + borrow = 1) :
    DifferenceToMem (.next (sumToMem m (add8 s.acc (~~~b) cin) s)) m s b borrow :=
  have ⟨t, r, ht, hsum, hframe, hram⟩ := sumToMem_add8 h (~~~b) cin
  ⟨t, r, ht, differenceIs_of_sumIs hsum hborrow, hframe, hram⟩

/-! ## The comparison a subtraction makes (40_arithmetic R213) -/

theorem difference_c_iff {a b r : Byte} {t : State} (h : DifferenceIs a b 0 r t) : t.c = true ↔ b.toNat ≤ a.toNat := by
  obtain ⟨-, hc, -⟩ := h
  exact hc

theorem difference_z_iff {a b r : Byte} {t : State} (h : DifferenceIs a b 0 r t) : t.z = true ↔ a = b := by
  obtain ⟨hr, -, -, -, hz⟩ := h
  have ha : a.toNat < 256 := a.isLt
  have hb : b.toNat < 256 := b.isLt
  rw [hz, ← BitVec.toNat_inj, ← BitVec.toNat_inj, hr, show (0 : Byte).toNat = 0 from rfl]
  omega

/-- The sign of the difference, corrected by OV, is that of the exact difference of the operands. -/
theorem ov_xor_sign_of_difference {a b r : Byte} {t : State} (h : DifferenceIs a b 0 r t) :
    (t.ov ^^ r.getLsbD 7) = true ↔ a.toInt < b.toInt := by
  obtain ⟨hr, -, -, hov, -⟩ := h
  have hsign : r.getLsbD 7 = true ↔ 128 ≤ r.toNat := by
    rw [show r.getLsbD 7 = r.msb from (BitVec.msb_eq_getLsbD_last r).symm, BitVec.msb_eq_decide]
    exact decide_eq_true_iff
  have ha : a.toNat < 256 := a.isLt
  have hb : b.toNat < 256 := b.isLt
  rw [Bool.xor_iff_ne, ne_eq, Bool.eq_iff_iff, hov, hsign, BitVec.toInt_eq_toNat_cond, BitVec.toInt_eq_toNat_cond]
  omega

/-! ## Two-digit bytes -/

theorem toNat_digits {h l : Nat} (hh : h < 16) (hl : l < 16) :
    (BitVec.ofNat 8 (h * 16 + l)).toNat / 16 = h ∧ (BitVec.ofNat 8 (h * 16 + l)).toNat % 16 = l := by
  rw [BitVec.toNat_ofNat]
  omega

/-- The digits of a number below 100 in BCD are its decimal digits. -/
theorem bcd_digits {n : Nat} (hn : n < 100) : (bcd n).toNat / 16 = n / 10 ∧ (bcd n).toNat % 16 = n % 10 :=
  toNat_digits (by omega) (by omega)

/-! ## Decimal adjustment (40_arithmetic R211) -/

/-- The low digit after the adjustment. -/
def daaLow (acc : Byte) (ac : Bool) : Nat :=
  if 9 < acc.toNat % 16 ∨ ac = true then (acc.toNat % 16 + 6) % 16 else acc.toNat % 16

/-- What the adjustment of the low digit carries into the high one, outside the disputed inputs. -/
def daaLowCarry (acc : Byte) : Nat := if 9 < acc.toNat % 16 then 1 else 0

/-- The new C: the high digit is adjusted. -/
def daaCarry (acc : Byte) (c : Bool) : Bool := decide (9 < acc.toNat / 16 + daaLowCarry acc) || c

/-- The high digit after the adjustment. -/
def daaHigh (acc : Byte) (c : Bool) : Nat :=
  if daaCarry acc c then (acc.toNat / 16 + 6 + daaLowCarry acc) % 16 else (acc.toNat / 16 + daaLowCarry acc) % 16

theorem daaCarry_iff {acc : Byte} {c : Bool} :
    daaCarry acc c = true ↔ 9 < acc.toNat / 16 + daaLowCarry acc ∨ c = true := by
  simp [daaCarry]

theorem daaLow_lt (acc : Byte) (ac : Bool) : daaLow acc ac < 16 := by
  unfold daaLow
  split <;> omega

theorem daaHigh_lt (acc : Byte) (c : Bool) : daaHigh acc c < 16 := by
  unfold daaHigh
  split <;> omega

theorem exec_daaM_of_ne {m : DataAddr} {s : State} (h : target m s ≠ .status) :
    exec (.daaM m) s =
      .next (setFlags (cFlag (daaResult s.acc s.ac s.c).2) (memWrite m (daaResult s.acc s.ac s.c).1 s)) :=
  congrArg Host.Outcome.next (toMem_of_ne h _ _)

theorem daaResult_of_disputed {acc : Byte} {ac : Bool} (h : 9 < acc.toNat % 16 ∧ ac = true) (c : Bool) :
    daaResult acc ac c = Config.daaDisputed acc ac c := by
  rw [daaResult, if_pos]
  simpa [daaIsDisputed] using h

/-- Outside the disputed inputs DAA gives the two adjusted digits and the new C. -/
theorem daaResult_of_not_disputed {acc : Byte} {ac : Bool} (h : ¬(9 < acc.toNat % 16 ∧ ac = true)) (c : Bool) :
    daaResult acc ac c = (BitVec.ofNat 8 (daaHigh acc c * 16 + daaLow acc ac), daaCarry acc c) := by
  have hcarry : (if (decide (9 < acc.toNat % 16) || ac) && !ac then 1 else 0) = daaLowCarry acc := by
    cases ac <;> simp_all [daaLowCarry]
  have hlow : (if decide (9 < acc.toNat % 16) || ac then (acc.toNat % 16 + 6) % 16 else acc.toNat % 16) = daaLow acc ac := by
    simp [daaLow]
  have hadjust : daaResult acc ac c = daaAdjust acc ac c := if_neg (by simpa [daaIsDisputed] using h)
  simp only [hadjust, daaAdjust, hcarry, hlow, ← daaCarry_iff]
  cases hc : daaCarry acc c with
  | true => simp [daaHigh, hc]
  | false =>
    obtain rfl : c = false := (Bool.or_eq_false_iff.mp hc).2
    simp [daaHigh, hc]

/-- Two-digit addition in base `b`: the low digit of the sum, the high digit, and the carry out of it. At base 16 it is the
adder's, at base 10 the one that DAA makes of it. -/
theorem add_digits {b : Nat} (hb : 0 < b) (x y n : Nat) :
    (x + y + n) % (b * b) % b = (x % b + y % b + n) % b ∧
    (x + y + n) % (b * b) / b = (x / b + y / b + (x % b + y % b + n) / b) % b ∧
    (b * b ≤ x + y + n ↔ b ≤ x / b + y / b + (x % b + y % b + n) / b) := by
  have hsplit : x + y + n = x % b + y % b + n + b * (x / b + y / b) := by
    rw [Nat.mul_add]
    conv_lhs => rw [← Nat.mod_add_div x b, ← Nat.mod_add_div y b]
    omega
  have hdiv : (x + y + n) / b = x / b + y / b + (x % b + y % b + n) / b := by
    rw [hsplit, Nat.add_mul_div_left _ _ hb, Nat.add_comm]
  refine ⟨?_, ?_, ?_⟩
  · rw [Nat.mod_mul_right_mod, hsplit, Nat.add_mul_mod_self_left]
  · rw [Nat.mod_mul_right_div_self, hdiv]
  · rw [← hdiv, Nat.le_div_iff_mul_le hb]

section
variable {acc : Byte} {ac c : Bool} {l h : Nat}

/-! In what follows the digits of the byte adjusted come from a sum `l` of two decimal digits and a carry, and a sum `h` of two
decimal digits. -/

/-- AC and the carry of the adjustment together are the decimal carry out of the low digit. -/
theorem daaLowCarry_of_sum (hl : l ≤ 19) (hlow : acc.toNat % 16 = l % 16) : daaLowCarry acc + l / 16 = l / 10 := by
  rw [daaLowCarry, hlow]
  split <;> omega

theorem daaLow_of_sum (hl : l ≤ 19) (hlow : acc.toNat % 16 = l % 16) (hac : ac = true ↔ 16 ≤ l) :
    daaLow acc ac = l % 10 := by
  simp only [daaLow, hac, hlow]
  split <;> omega

theorem daaCarry_of_sum (hl : l ≤ 19) (hh : h ≤ 18) (hlow : acc.toNat % 16 = l % 16)
    (hhigh : acc.toNat / 16 = (h + l / 16) % 16) (hc : c = true ↔ 16 ≤ h + l / 16) :
    daaCarry acc c = true ↔ 10 ≤ h + l / 10 := by
  have hcarry := daaLowCarry_of_sum hl hlow
  have hle : l / 10 ≤ 1 := by omega
  rw [daaCarry_iff, hc, hhigh]
  generalize l / 16 = p, l / 10 = q, daaLowCarry acc = k at hcarry hle ⊢
  omega

theorem daaHigh_of_sum (hl : l ≤ 19) (hh : h ≤ 18) (hlow : acc.toNat % 16 = l % 16)
    (hhigh : acc.toNat / 16 = (h + l / 16) % 16) (hc : c = true ↔ 16 ≤ h + l / 16) :
    daaHigh acc c = (h + l / 10) % 10 := by
  have hcarry := daaLowCarry_of_sum hl hlow
  have hle : l / 10 ≤ 1 := by omega
  simp only [daaHigh, daaCarry_of_sum hl hh hlow hhigh hc, hhigh]
  generalize l / 16 = p, l / 10 = q, daaLowCarry acc = k at hcarry hle ⊢
  split <;> omega

end

/-- The sum of two bytes in BCD is no disputed input, and DAA makes of it the decimal sum and its carry. -/
theorem daaResult_of_bcd_sum {x y : Nat} (hx : x < 100) (hy : y < 100) {cin : Bool} {r : Byte} {t : State}
    (h : SumIs (bcd x) (bcd y) cin r t) :
    daaResult r t.ac t.c = (bcd ((x + y + cin.toNat) % 100), decide (100 ≤ x + y + cin.toNat)) := by
  obtain ⟨hr, hc, hac, -⟩ := h
  obtain ⟨hlow16, hhigh16, hcarry16⟩ := add_digits (b := 16) (by decide) (bcd x).toNat (bcd y).toNat cin.toNat
  obtain ⟨hlow10, hhigh10, hcarry10⟩ := add_digits (b := 10) (by decide) x y cin.toNat
  obtain ⟨hxh, hxl⟩ := bcd_digits hx
  obtain ⟨hyh, hyl⟩ := bcd_digits hy
  rw [hxh, hyh, hxl, hyl] at hhigh16 hcarry16
  rw [hxl, hyl] at hlow16 hac
  have hlow : r.toNat % 16 = (x % 10 + y % 10 + cin.toNat) % 16 := (congrArg (· % 16) hr).trans hlow16
  have hhigh : r.toNat / 16 = (x / 10 + y / 10 + (x % 10 + y % 10 + cin.toNat) / 16) % 16 :=
    (congrArg (· / 16) hr).trans hhigh16
  have hl : x % 10 + y % 10 + cin.toNat ≤ 19 := by
    have hcin : cin.toNat ≤ 1 := cin.toNat_le
    omega
  have hh : x / 10 + y / 10 ≤ 18 := by omega
  have hundisputed : ¬(9 < r.toNat % 16 ∧ t.ac = true) := by
    rw [hac, hlow]
    omega
  have hcarry : daaCarry r t.c = true ↔ 100 ≤ x + y + cin.toNat :=
    (daaCarry_of_sum hl hh hlow hhigh (hc.trans hcarry16)).trans hcarry10.symm
  rw [daaResult_of_not_disputed hundisputed, daaHigh_of_sum hl hh hlow hhigh (hc.trans hcarry16), ← hhigh10,
    daaLow_of_sum hl hlow hac, ← hlow10]
  exact congrArg (Prod.mk _) (Bool.eq_iff_iff.mpr (hcarry.trans decide_eq_true_iff.symm))

end Sys2Proof.Machine

namespace Sys2Proof.Proofs

open Sys2Proof.Machine Sys2Proof.Claims

/-- Settles O11: all three deliver the adder's sum to ACC. -/
theorem addToAccumulator : Obligations.AddToAccumulator :=
  fun m x s => ⟨sumToAcc_add8 (memRead m s) false s, ⟨rfl, rfl⟩, sumToAcc_add8 x false s, ⟨rfl, rfl⟩,
    sumToAcc_add8 (memRead m s) s.c s, ⟨rfl, rfl⟩⟩

/-- Settles O12: as for O11, with the complement of the byte and the carry that completes the borrow to 1. -/
theorem subtractFromAccumulator : Obligations.SubtractFromAccumulator :=
  fun m x s => ⟨differenceToAcc_add8 (memRead m s) s rfl, ⟨rfl, rfl⟩, differenceToAcc_add8 x s rfl, ⟨rfl, rfl⟩,
    differenceToAcc_add8 (memRead m s) s (toNat_c_add_borrowOf s), ⟨rfl, rfl⟩⟩

/-- Settles O13: where the destination is not STATUS the write and the flags do not meet, `sumToMem_add8`. -/
theorem addToMemory : Obligations.AddToMemory :=
  fun m s h => ⟨sumToMem_add8 h (memRead m s) false, ⟨rfl, one_add_pclCycle m s⟩,
    sumToMem_add8 h (memRead m s) s.c, ⟨rfl, one_add_pclCycle m s⟩⟩

/-- Settles O14: as for O13, with the complement of the byte and the carry that completes the borrow to 1. -/
theorem subtractToMemory : Obligations.SubtractToMemory :=
  fun m s h => ⟨differenceToMem_add8 h (memRead m s) rfl, ⟨rfl, one_add_pclCycle m s⟩,
    differenceToMem_add8 h (memRead m s) (toNat_c_add_borrowOf s), ⟨rfl, one_add_pclCycle m s⟩⟩

/-- Settles O15: the comparisons hold of any state with the flags of a difference, `differenceToAcc_add8`. -/
theorem subtractionComparesOperands : Obligations.SubtractionComparesOperands := by
  intro m s
  obtain ⟨t, ht, hdiff, -⟩ := differenceToAcc_add8 (memRead m s) (cin := true) (borrow := 0) s rfl
  refine ⟨⟨t, ht, difference_c_iff hdiff, difference_z_iff hdiff, ov_xor_sign_of_difference hdiff⟩,
    fun hc => ?_, fun hc => ?_⟩
  · show execSbcAM m s = execSubAM m s
    rw [execSbcAM, execSubAM, hc]
  · show execAdcAM m s = execAddAM m s
    rw [execAdcAM, execAddAM, hc]

/-- Settles O16: the byte written and the new C are `daaResult`. -/
theorem decimalAdjust : Obligations.DecimalAdjust := by
  intro m s h
  refine ⟨_, _, exec_daaM_of_ne h, rfl, ramStored_of_ram_eq rfl, ⟨rfl, one_add_pclCycle m s⟩,
    fun hdisputed => daaResult_of_disputed hdisputed s.c, fun hundisputed => ⟨daaLowCarry s.acc, rfl, ?_⟩⟩
  obtain ⟨hhigh, hlow⟩ := toNat_digits (daaHigh_lt s.acc s.c) (daaLow_lt s.acc s.ac)
  rw [daaResult_of_not_disputed hundisputed]
  refine ⟨hlow, hhigh.trans ?_, daaCarry_iff⟩
  simp only [daaHigh, daaCarry_iff]

/-- Settles O17: the adder's digits meet `daaResult_of_bcd_sum`, whatever `[m]` was. -/
theorem decimalAdjustAfterAddIsBcd : Obligations.DecimalAdjustAfterAddIsBcd := by
  intro m d x y s hx hy hd hacc hmem
  obtain ⟨t, ht, hsum, -⟩ := sumToAcc_add8 (memRead m s) s.c s
  rw [hacc, hmem] at hsum
  have htarget : target d t = .ram d := target_direct_ram t hd
  have hexec := exec_daaM_of_ne (m := d) (s := t) (by simp [htarget])
  rw [daaResult_of_bcd_sum hx hy hsum] at hexec
  exact ⟨t, _, ht, hexec, ramAt_memWrite_same _ htarget, decide_eq_true_iff⟩

end Sys2Proof.Proofs
end

/-!
Proofs of the family of the logic (41_logic): the two ways a result is delivered with Z alone, and the bits of the complement.
-/

section
namespace Sys2Proof.Machine

open Sys2Proof.Claims

/-! ## Results delivered with Z alone (41_logic R220) -/

/-- Written with the flags of `zFlag`, a state has Z of the result. -/
theorem z_setFlags_zFlag_iff (r : Byte) (u : State) : (setFlags (zFlag r) u).z = true ↔ r = 0 := beq_iff_eq

theorem bitsToAcc_zToAcc {r : Byte} {f : Nat → Bool} (s : State) (h : ∀ k < 8, r.getLsbD k = f k) :
    BitsToAcc (.next (zToAcc r s)) s f :=
  ⟨_, rfl, h, z_setFlags_zFlag_iff r _, rfl⟩

theorem bitsToMem_zToMem {m : DataAddr} {r : Byte} {f : Nat → Bool} {s : State} (hm : target m s ≠ .status)
    (h : ∀ k < 8, r.getLsbD k = f k) : BitsToMem (.next (zToMem m r s)) m s f := by
  rw [zToMem, toMem_of_ne hm]
  exact ⟨_, r, rfl, h, z_setFlags_zFlag_iff r _, rfl, ramStored_of_ram_eq rfl⟩

/-! ## The bits of the complement -/

/-- Within the width the complement turns every bit over; past it both read 0, so the bound is needed. -/
theorem getLsbD_not_of_lt {w k : Nat} (v : BitVec w) (hk : k < w) : (~~~v).getLsbD k = !v.getLsbD k := by
  rw [BitVec.getLsbD_not, decide_eq_true hk, Bool.true_and]

end Sys2Proof.Machine

namespace Sys2Proof.Proofs

open Sys2Proof.Machine Sys2Proof.Claims

/-- Settles O18: all seven deliver their byte to ACC with Z alone, `bitsToAcc_zToAcc`. -/
theorem logicToAccumulator : Obligations.LogicToAccumulator := by
  intro m x s
  refine ⟨?andAM, ?orAM, ?xorAM, ?andAX, ?orAX, ?xorAX, ?cplaM,
    ⟨rfl, rfl⟩, ⟨rfl, rfl⟩, ⟨rfl, rfl⟩, ⟨rfl, rfl⟩, ⟨rfl, rfl⟩, ⟨rfl, rfl⟩, ⟨rfl, rfl⟩⟩
  case andAM => exact bitsToAcc_zToAcc s fun _ _ => BitVec.getLsbD_and
  case orAM => exact bitsToAcc_zToAcc s fun _ _ => BitVec.getLsbD_or
  case xorAM => exact bitsToAcc_zToAcc s fun _ _ => BitVec.getLsbD_xor
  case andAX => exact bitsToAcc_zToAcc s fun _ _ => BitVec.getLsbD_and
  case orAX => exact bitsToAcc_zToAcc s fun _ _ => BitVec.getLsbD_or
  case xorAX => exact bitsToAcc_zToAcc s fun _ _ => BitVec.getLsbD_xor
  case cplaM => exact bitsToAcc_zToAcc s fun _ hk => getLsbD_not_of_lt (memRead m s) hk

/-- Settles O19: where the destination is not STATUS the write and Z do not meet, `bitsToMem_zToMem`. -/
theorem logicToMemory : Obligations.LogicToMemory := by
  intro m s hm
  have hcycles := one_add_pclCycle m s
  refine ⟨?andmAM, ?ormAM, ?xormAM, ?cplM, ⟨rfl, hcycles⟩, ⟨rfl, hcycles⟩, ⟨rfl, hcycles⟩, ⟨rfl, hcycles⟩⟩
  case andmAM => exact bitsToMem_zToMem hm fun _ _ => BitVec.getLsbD_and
  case ormAM => exact bitsToMem_zToMem hm fun _ _ => BitVec.getLsbD_or
  case xormAM => exact bitsToMem_zToMem hm fun _ _ => BitVec.getLsbD_xor
  case cplM => exact bitsToMem_zToMem hm fun _ hk => getLsbD_not_of_lt (memRead m s) hk

end Sys2Proof.Proofs
end

/-!
Proofs of the family of increment and decrement (42_incdec): the two ways a count is delivered with Z alone, and the
byte that a decrement gives.
-/

section
namespace Sys2Proof.Machine

open Sys2Proof.Claims

/-! ## Counts delivered with Z alone (42_incdec R240) -/

/-- Where a byte holds `n` modulo 256, Z of the byte is Z of the count. -/
theorem z_setFlags_zFlag_iff_of_toNat {r : Byte} {n : Nat} (h : r.toNat = n % 256) (u : State) :
    (setFlags (zFlag r) u).z = true ↔ n % 256 = 0 := by
  rw [z_setFlags_zFlag_iff, ← h]
  exact BitVec.toNat_inj.symm

theorem countToAcc_zToAcc {r : Byte} {n : Nat} (s : State) (h : r.toNat = n % 256) :
    CountToAcc (.next (zToAcc r s)) s n :=
  ⟨_, rfl, h, z_setFlags_zFlag_iff_of_toNat h _, rfl⟩

theorem countToMem_zToMem {m : DataAddr} {r : Byte} {n : Nat} {s : State} (hm : target m s ≠ .status)
    (h : r.toNat = n % 256) : CountToMem (.next (zToMem m r s)) m s n := by
  rw [zToMem, toMem_of_ne hm]
  exact ⟨_, r, rfl, h, z_setFlags_zFlag_iff_of_toNat h _, rfl, ramStored_of_ram_eq rfl⟩

/-! ## One down -/

/-- One down is 255 up, modulo 256. -/
theorem toNat_sub_one (b : Byte) : (b - 1).toNat = (b.toNat + 255) % 256 := by
  rw [BitVec.toNat_sub, Nat.add_comm]
  rfl

end Sys2Proof.Machine

namespace Sys2Proof.Proofs

open Sys2Proof.Machine Sys2Proof.Claims

/-- Settles O20: the count is delivered with Z alone, to ACC by `countToAcc_zToAcc`, and where the destination is not STATUS to
data memory by `countToMem_zToMem`. -/
theorem incrementAndDecrement : Obligations.IncrementAndDecrement := by
  intro m s
  have hinc : (memRead m s + 1).toNat = ((memRead m s).toNat + 1) % 256 := BitVec.toNat_add (memRead m s) 1
  have hdec := toNat_sub_one (memRead m s)
  have hcycles := one_add_pclCycle m s
  refine ⟨?incaM, ⟨rfl, rfl⟩, ?decaM, ⟨rfl, rfl⟩, fun hm => ⟨?incM, ?decM⟩, ⟨rfl, hcycles⟩, ⟨rfl, hcycles⟩⟩
  case incaM => exact countToAcc_zToAcc s hinc
  case decaM => exact countToAcc_zToAcc s hdec
  case incM => exact countToMem_zToMem hm hinc
  case decM => exact countToMem_zToMem hm hdec

end Sys2Proof.Proofs
end

/-!
Proofs of the family of the rotates (43_rotate): the bits of the two rotated bytes, the ways they are delivered, and the ring
of nine bits that a rotate through carry turns.
-/

section
namespace Sys2Proof.Machine

open Sys2Proof.Claims

/-! ## The bits of a rotated byte (43_rotate R250) -/

theorem getLsbD_rotateRightIn (b : Bool) (v : Byte) {k : Nat} (hk : k < 8) :
    (rotateRightIn b v).getLsbD k = if k = 7 then b else v.getLsbD (k + 1) := by
  rw [rotateRightIn, BitVec.getLsbD_append]
  split
  next hlow =>
    rw [BitVec.getLsbD_extractLsb', decide_eq_true hlow, Bool.true_and, Nat.add_comm, if_neg (by omega)]
  next htop =>
    have hk7 : k = 7 := by omega
    simp [hk7]

theorem getLsbD_rotateLeftIn (b : Bool) (v : Byte) {k : Nat} (hk : k < 8) :
    (rotateLeftIn b v).getLsbD k = if k = 0 then b else v.getLsbD (k - 1) := by
  rw [rotateLeftIn, BitVec.getLsbD_append]
  split
  next hend =>
    have hk0 : k = 0 := by omega
    simp [hk0]
  next hhigh =>
    rw [BitVec.getLsbD_extractLsb', decide_eq_true (by omega), Bool.true_and, Nat.zero_add, if_neg (by omega)]

/-- Where bit 0 itself comes in at bit 7, the eight bits form a ring. -/
theorem getLsbD_rotateRightIn_self (v : Byte) {k : Nat} (hk : k < 8) :
    (rotateRightIn (v.getLsbD 0) v).getLsbD k = v.getLsbD ((k + 1) % 8) := by
  rw [getLsbD_rotateRightIn _ v hk]
  split
  next htop => rw [htop]
  next hlow => rw [Nat.mod_eq_of_lt (by omega)]

/-- Where bit 7 itself comes in at bit 0, the eight bits form a ring. -/
theorem getLsbD_rotateLeftIn_self (v : Byte) {k : Nat} (hk : k < 8) :
    (rotateLeftIn (v.getLsbD 7) v).getLsbD k = v.getLsbD ((k + 7) % 8) := by
  rw [getLsbD_rotateLeftIn _ v hk]
  split
  next hend => rw [hend]
  next hhigh => rw [show (k + 7) % 8 = k - 1 by omega]

/-! ## Rotated bytes delivered, with no flag or with C alone (43_rotate R250) -/

theorem rotateToAcc_setAcc {r : Byte} {f : Nat → Bool} (s : State) (h : ∀ k < 8, r.getLsbD k = f k) :
    RotateToAcc (.next (setAcc r s)) s f s.c :=
  ⟨_, rfl, h, rfl⟩

theorem rotateToAcc_toAcc {r : Byte} {f : Nat → Bool} (c : Bool) (s : State) (h : ∀ k < 8, r.getLsbD k = f k) :
    RotateToAcc (.next (toAcc r (cFlag c) s)) s f c :=
  ⟨_, rfl, h, rfl⟩

theorem bytePut_memWrite {r : Byte} {f : Nat → Bool} (m : DataAddr) (s : State) (h : ∀ k < 8, r.getLsbD k = f k) :
    BytePut (.next (memWrite m r s)) m s f :=
  ⟨_, r, rfl, h, rfl, ramStored_of_ram_eq rfl⟩

theorem rotateMemC_toMem {m : DataAddr} {r : Byte} {f : Nat → Bool} {s : State} (hm : target m s ≠ .status) (c : Bool)
    (h : ∀ k < 8, r.getLsbD k = f k) : RotateMemC (.next (toMem m r (cFlag c) s)) m s f c := by
  rw [toMem_of_ne hm]
  exact ⟨_, r, rfl, h, rfl, ramStored_of_ram_eq rfl⟩

/-- RLC off STATUS: the byte moves one bit up, C comes in at bit 0 and bit 7 goes out to C (R258). -/
theorem exec_rlcM_rotates {m : DataAddr} {s : State} (hm : target m s ≠ .status) :
    RotateMemC (exec (.rlcM m) s) m s (fun k => if k = 0 then s.c else (memRead m s).getLsbD (k - 1))
      ((memRead m s).getLsbD 7) :=
  rotateMemC_toMem hm _ fun _ => getLsbD_rotateLeftIn s.c (memRead m s)

/-! ## The ring of nine bits (43_rotate R258)

A byte of RAM with C above its bit 7 is a ring of nine bits, and `RLC` of that byte turns the ring by one place. -/

/-- Bit `k` of the ring: the byte of RAM at `a` in places 0 to 7, C in place 8. -/
def ringBit (a : DataAddr) (s : State) (k : Nat) : Bool := if k = 8 then s.c else (ramAt s a).getLsbD k

theorem ringBit_carry (a : DataAddr) (s : State) : ringBit a s 8 = s.c := rfl

theorem ringBit_of_lt (a : DataAddr) (s : State) {k : Nat} (hk : k < 8) : ringBit a s k = (ramAt s a).getLsbD k :=
  if_neg (Nat.ne_of_lt hk)

/-- What stands one place behind a bit of the byte: C behind bit 0, the next lower bit behind any other. -/
theorem ringBit_pred (a : DataAddr) (s : State) {k : Nat} (hk : k < 8) :
    ringBit a s ((k + 8) % 9) = if k = 0 then s.c else (ramAt s a).getLsbD (k - 1) := by
  split
  next hk0 => rw [hk0, ringBit_carry]
  next hk0 => rw [show (k + 8) % 9 = k - 1 by omega, ringBit_of_lt a s (by omega)]

/-- `t` is `s` with the ring at `a` turned left by `n` places, so that each bit comes from `8 * n` places further on. -/
structure RingTurned (a : DataAddr) (n : Nat) (s t : State) : Prop where
  frame : t = { s with ram := t.ram, c := t.c }
  others : ∀ b ≠ a, ramAt t b = ramAt s b
  ring : ∀ k < 9, ringBit a t k = ringBit a s ((k + 8 * n) % 9)

theorem RingTurned.refl (a : DataAddr) (s : State) : RingTurned a 0 s s where
  frame := rfl
  others _ _ := rfl
  ring k hk := by rw [Nat.mul_zero, Nat.add_zero, Nat.mod_eq_of_lt hk]

theorem RingTurned.trans {a : DataAddr} {i j : Nat} {s t u : State} (h : RingTurned a i s t) (k : RingTurned a j t u) :
    RingTurned a (j + i) s u where
  frame := by
    have hframe := k.frame
    rw [h.frame] at hframe
    exact hframe
  others b hb := (k.others b hb).trans (h.others b hb)
  ring p hp := by
    rw [k.ring p hp, h.ring _ (Nat.mod_lt _ (by decide)), Nat.mod_add_mod, Nat.add_assoc, ← Nat.mul_add]

/-- What is outside the ring stays, so an access leads where it led before. -/
theorem RingTurned.target_eq {a : DataAddr} {n : Nat} {s t : State} (h : RingTurned a n s t) (m : DataAddr) :
    target m t = target m s :=
  target_congr (congrArg State.mp h.frame :) m

/-- Nine places are the whole ring. -/
theorem RingTurned.full_turn {a : DataAddr} {s t : State} (h : RingTurned a 9 s t) :
    t = { s with ram := t.ram } ∧ ∀ b, ramAt t b = ramAt s b := by
  have hring (k : Nat) (hk : k < 9) : ringBit a t k = ringBit a s k := by
    rw [h.ring k hk, show (k + 8 * 9) % 9 = k by omega]
  have hc : t.c = s.c := hring 8 (by decide)
  have hbyte : ramAt t a = ramAt s a := by
    refine BitVec.eq_of_getLsbD_eq fun k hk => ?_
    rw [← ringBit_of_lt a t hk, ← ringBit_of_lt a s hk]
    exact hring k (by omega)
  refine ⟨?_, fun b => ?_⟩
  · have hframe := h.frame
    rw [hc] at hframe
    exact hframe
  · by_cases hb : b = a
    · rw [hb, hbyte]
    · exact h.others b hb

/-- One `RLC` of a byte of RAM completes and turns the ring by one place. -/
theorem exec_rlcM_turns {m a : DataAddr} {s : State} (hm : target m s = .ram a) :
    ∃ t, exec (.rlcM m) s = .next t ∧ RingTurned a 1 s t := by
  have hne : target m s ≠ .status := by
    rw [hm]
    nofun
  obtain ⟨t, r, hexec, hbits, ht, hram⟩ := exec_rlcM_rotates hne
  rw [memRead_of_ram hm] at hbits ht
  have hc : t.c = (ramAt s a).getLsbD 7 := congrArg State.c ht
  have hbyte : ramAt t a = r := (hram a).1 hm
  refine ⟨t, hexec, ?_, fun b hb => (hram b).2 ?_, fun k hk => ?_⟩
  · rw [memWrite_of_ram hm] at ht
    rw [ht]
  · rw [hm]
    exact fun e => hb (Loc.ram.inj e).symm
  · by_cases hk8 : k = 8
    · rw [hk8, ringBit_carry, hc]
      rfl
    · have hlt : k < 8 := by omega
      rw [ringBit_of_lt a t hlt, hbyte]
      exact (hbits k hlt).trans (ringBit_pred a s hlt).symm

/-- `n` executions of `RLC` of a byte of RAM complete and turn the ring by `n` places. -/
theorem rlcTimes_turns {m a : DataAddr} (n : Nat) {s : State} (hm : target m s = .ram a) :
    ∃ t, rlcTimes m n s = .next t ∧ RingTurned a n s t := by
  induction n generalizing s with
  | zero => exact ⟨s, rfl, .refl a s⟩
  | succ n ih =>
    obtain ⟨u, hexec, hfirst⟩ := exec_rlcM_turns hm
    obtain ⟨t, hrest, hturns⟩ := ih ((hfirst.target_eq m).trans hm)
    refine ⟨t, ?_, hfirst.trans hturns⟩
    rw [rlcTimes, hexec]
    exact hrest

end Sys2Proof.Machine

namespace Sys2Proof.Proofs

open Sys2Proof.Machine Sys2Proof.Claims

/-- Settles O21: the plain rotates leave C as it is, those through carry deliver the bit that goes out. -/
theorem rotateToAccumulator : Obligations.RotateToAccumulator := by
  intro m s
  refine ⟨?rraM, ?rlaM, ?rrcaM, ?rlcaM, ⟨rfl, rfl⟩, ⟨rfl, rfl⟩, ⟨rfl, rfl⟩, ⟨rfl, rfl⟩⟩
  case rraM => exact rotateToAcc_setAcc s fun _ => getLsbD_rotateRightIn_self (memRead m s)
  case rlaM => exact rotateToAcc_setAcc s fun _ => getLsbD_rotateLeftIn_self (memRead m s)
  case rrcaM => exact rotateToAcc_toAcc _ s fun _ => getLsbD_rotateRightIn s.c (memRead m s)
  case rlcaM => exact rotateToAcc_toAcc _ s fun _ => getLsbD_rotateLeftIn s.c (memRead m s)

/-- Settles O22: RR and RL are a write alone, so STATUS is a destination as any other; for RRC and RLC off STATUS the write and
C do not meet, `rotateMemC_toMem`. -/
theorem rotateMemory : Obligations.RotateMemory := by
  intro m s
  have hcycles := one_add_pclCycle m s
  refine ⟨?rrM, ?rlM, fun hm => ⟨?rrcM, ?rlcM⟩, ⟨rfl, hcycles⟩, ⟨rfl, hcycles⟩, ⟨rfl, hcycles⟩, ⟨rfl, hcycles⟩⟩
  case rrM => exact bytePut_memWrite m s fun _ => getLsbD_rotateRightIn_self (memRead m s)
  case rlM => exact bytePut_memWrite m s fun _ => getLsbD_rotateLeftIn_self (memRead m s)
  case rrcM => exact rotateMemC_toMem hm _ fun _ => getLsbD_rotateRightIn s.c (memRead m s)
  case rlcM => exact exec_rlcM_rotates hm

/-- Settles O23: nine executions turn the ring of nine bits by nine places, once round. -/
theorem nineRotatesThroughCarryRestore : Obligations.NineRotatesThroughCarryRestore := by
  intro m a s hm
  obtain ⟨t, hrun, hturned⟩ := rlcTimes_turns 9 hm
  exact ⟨t, hrun, hturned.full_turn⟩

end Sys2Proof.Proofs
end

/-!
Proofs of the family of the data moves (44_datamove): the state that each move gives is named, and RAM follows from the write.
-/

section
namespace Sys2Proof.Proofs

open Sys2Proof.Machine Sys2Proof.Claims

/-- Settles O24: a move to ACC sets it to its byte, and MOV [m],A is the data-memory write of ACC alone. No move writes a flag of
its own (R265), so STATUS and PCL are destinations as any other. -/
theorem movesCopyOneByte : Obligations.MovesCopyOneByte := by
  intro m x s
  refine ⟨?movAM, ?movMA, ?movAX, ⟨rfl, rfl⟩, ⟨rfl, one_add_pclCycle m s⟩, ⟨rfl, rfl⟩⟩
  case movAM => exact ⟨setAcc (memRead m s) s, rfl, rfl, rfl⟩
  case movMA => exact ⟨memWrite m s.acc s, rfl, rfl, ramStored_of_ram_eq rfl⟩
  case movAX => exact ⟨setAcc x s, rfl, rfl, rfl⟩

end Sys2Proof.Proofs
end

/-!
Proofs of the family of the bit operations (45_bitop): the bits of a byte in which one bit is forced, and the write of that byte.
-/

section
namespace Sys2Proof.Machine

/-! ## The bits of a byte with one bit forced (45_bitop R275) -/

theorem getLsbD_bitMask (i : BitVec 3) (k : Nat) : (bitMask i).getLsbD k = decide (i.toNat = k) := by
  have hmask : bitMask i = BitVec.twoPow 8 i.toNat := rfl
  rw [hmask, BitVec.getLsbD_twoPow, decide_eq_true i.isLt, Bool.true_and]

theorem getLsbD_or_bitMask (v : Byte) (i : BitVec 3) (k : Nat) :
    (v ||| bitMask i).getLsbD k = if k = i.toNat then true else v.getLsbD k := by
  rw [BitVec.getLsbD_or, getLsbD_bitMask]
  split
  next hi => rw [decide_eq_true hi.symm, Bool.or_true]
  next hi => rw [decide_eq_false (Ne.symm hi), Bool.or_false]

theorem getLsbD_and_not_bitMask (v : Byte) (i : BitVec 3) {k : Nat} (hk : k < 8) :
    (v &&& ~~~bitMask i).getLsbD k = if k = i.toNat then false else v.getLsbD k := by
  rw [BitVec.getLsbD_and, getLsbD_not_of_lt _ hk, getLsbD_bitMask]
  split
  next hi => rw [decide_eq_true hi.symm, Bool.not_true, Bool.and_false]
  next hi => rw [decide_eq_false (Ne.symm hi), Bool.not_false, Bool.and_true]

end Sys2Proof.Machine

namespace Sys2Proof.Proofs

open Sys2Proof.Machine Sys2Proof.Claims

/-- Settles O25: the byte read, with bit i forced, is written back by the data-memory write alone (R275). No flag is written, so
STATUS and PCL are destinations as any other. -/
theorem bitOperationsChangeOneBit : Obligations.BitOperationsChangeOneBit := by
  intro m i s
  have hcycles := one_add_pclCycle m s
  refine ⟨?clrMI, ?setMI, ⟨rfl, hcycles⟩, ⟨rfl, hcycles⟩⟩
  case clrMI => exact bytePut_memWrite m s fun _ => getLsbD_and_not_bitMask (memRead m s) i
  case setMI => exact bytePut_memWrite m s fun k _ => getLsbD_or_bitMask (memRead m s) i k

end Sys2Proof.Proofs
end

/-!
Proofs of the family of the branches (46_branch): the skip as a move of `pc` by the number of its test, the tests as numbers,
and the count that goes to `[m]` with its skip.
-/

section
namespace Sys2Proof.Machine

open Sys2Proof.Claims

/-! ## A skip is a move of `pc` by its test (46_branch R286)

The number of a test is 1 where it is passed and 0 where it is not. It is what `pc` moves on by, and the cycles that the skip
takes more. -/

theorem skipIf_of_toNat {b : Bool} {n : Nat} (h : b.toNat = n) (s : State) :
    skipIf b s = { s with pc := s.pc + BitVec.ofNat 10 n } := by
  subst h
  cases b with
  | true => rfl
  | false =>
    have hpc : s.pc + BitVec.ofNat 10 false.toNat = s.pc := BitVec.add_zero s.pc
    rw [hpc]
    rfl

theorem skipIf_setAcc_of_toNat {b : Bool} {n : Nat} (h : b.toNat = n) (v : Byte) (s : State) :
    skipIf b (setAcc v s) = { s with acc := v, pc := s.pc + BitVec.ofNat 10 n } :=
  skipIf_of_toNat h (setAcc v s)

/-- An instruction that takes note (2) of 70_reset R546 alone. -/
theorem one_add_skipCycle_of_toNat {b : Bool} {n : Nat} (h : b.toNat = n) : 1 + skipCycle b = 1 + n := by
  subst h
  cases b <;> rfl

/-! ## The tests as numbers -/

theorem toNat_beq_zero {r : Byte} {p : Prop} [Decidable p] (h : r = 0 ↔ p) : (r == 0).toNat = if p then 1 else 0 := by
  split
  next hp => rw [beq_iff_eq.mpr (h.mpr hp), Bool.toNat_true]
  next hp => rw [beq_eq_false_iff_ne.mpr (mt h.mp hp), Bool.toNat_false]

theorem eq_zero_iff_toNat (b : Byte) : b = 0 ↔ b.toNat = 0 := BitVec.toNat_inj.symm

/-- One up from 255 alone is zero. -/
theorem add_one_eq_zero_iff (b : Byte) : b + 1 = 0 ↔ b.toNat = 255 := by bv_omega

/-- One down from 1 alone is zero. -/
theorem sub_one_eq_zero_iff (b : Byte) : b - 1 = 0 ↔ b.toNat = 1 := by bv_omega

theorem toNat_bitOf (v : Byte) (i : BitVec 3) : (bitOf v i).toNat = v.toNat / 2 ^ i.toNat % 2 :=
  Nat.toNat_testBit v.toNat i.toNat

theorem toNat_not_bitOf (v : Byte) (i : BitVec 3) : (!bitOf v i).toNat = 1 - v.toNat / 2 ^ i.toNat % 2 := by
  rw [← toNat_bitOf]
  cases bitOf v i <;> rfl

/-! ## A count to `[m]` with its skip (46_branch R292, R293) -/

/-- Where PCL is not loaded with zero, the write and then the skip. -/
theorem storeAndSkip_of_ordered {m : DataAddr} {r : Byte} {s : State} {n : Nat} (h : ¬(r = 0 ∧ target m s = .pcl))
    (hn : (r == 0).toNat = n) :
    storeAndSkip m r s = { memWrite m r s with pc := (memWrite m r s).pc + BitVec.ofNat 10 n } := by
  rw [storeAndSkip, if_neg h, skipIf_of_toNat hn]

/-- Where PCL is loaded with zero, `pc` is a free value (log 14). -/
theorem storeAndSkip_of_open {m : DataAddr} {r : Byte} {s : State} (hr : r = 0) (hm : target m s = .pcl) :
    storeAndSkip m r s = { s with pc := Config.pclSkipTarget s.freeCtr, freeCtr := s.freeCtr + 1 } :=
  if_pos ⟨hr, hm⟩

/-- An instruction that takes notes (1) and (2) of 70_reset R546. -/
theorem one_add_skipCycle_add_pclCycle_of_toNat {b : Bool} {n : Nat} (h : b.toNat = n) (m : DataAddr) (s : State) :
    1 + skipCycle b + pclCycle m s = storeCycles m s + n := by
  rw [one_add_skipCycle_of_toNat h, Nat.add_right_comm, one_add_pclCycle]

end Sys2Proof.Machine

namespace Sys2Proof.Proofs

open Sys2Proof.Machine Sys2Proof.Claims

/-- Settles O30: the three returns are `returnThen` with what they do besides. -/
theorem returnsPopTheStack : Obligations.ReturnsPopTheStack := by
  intro x s rest a h
  refine ⟨?ret, ?reti, ?retAX, ⟨rfl, rfl⟩, ⟨rfl, rfl⟩, ⟨rfl, rfl⟩⟩
  case ret => exact returnThen_concat id h
  case reti => exact returnThen_concat setEmi h
  case retAX => exact returnThen_concat (setAcc x) h

/-- Settles O32: where a level is free the push adds `pc` behind the stack, and `RET` takes just that entry off again. -/
theorem callThenReturnResumes : Obligations.CallThenReturnResumes := by
  intro addr s hfree
  have hstack : (push s.pc s).stack = s.stack ++ [s.pc] := by rw [push_stack, if_pos hfree]
  refine ⟨setPc addr (push s.pc s), rfl, rfl, ?depth, returnThen_concat id hstack⟩
  case depth => rw [setPc_stack, hstack, List.length_append, List.length_singleton]

/-- Settles O33: each of the four is `skipIf` of its test, and the number of the test is the one stated. -/
theorem skipTests : Obligations.SkipTests := by
  intro m i s
  refine ⟨?byte, ?bit⟩
  case byte =>
    rintro v n rfl rfl
    have hzero := toNat_beq_zero (eq_zero_iff_toNat (memRead m s))
    have hcycles := one_add_skipCycle_of_toNat hzero
    refine ⟨?szM, ?szaM, ⟨rfl, hcycles⟩, ⟨rfl, hcycles⟩⟩
    case szM => exact congrArg Host.Outcome.next (skipIf_of_toNat hzero s)
    case szaM => exact congrArg Host.Outcome.next (skipIf_setAcc_of_toNat hzero (memRead m s) s)
  case bit =>
    rintro n rfl
    have hset := toNat_bitOf (memRead m s) i
    have hclear := toNat_not_bitOf (memRead m s) i
    refine ⟨?szMI, ?snzMI, ⟨rfl, one_add_skipCycle_of_toNat hclear⟩, ⟨rfl, one_add_skipCycle_of_toNat hset⟩⟩
    case szMI => exact congrArg Host.Outcome.next (skipIf_of_toNat hclear s)
    case snzMI => exact congrArg Host.Outcome.next (skipIf_of_toNat hset s)

/-- Settles O34: the count goes to ACC before the skip, which moves `pc` alone. -/
theorem skipOnCountToAccumulator : Obligations.SkipOnCountToAccumulator := by
  intro m s
  refine ⟨?sizaM, ?sdzaM⟩
  case sizaM =>
    have hzero := toNat_beq_zero (add_one_eq_zero_iff (memRead m s))
    have hafter := skipIf_setAcc_of_toNat hzero (memRead m s + 1) s
    exact ⟨_, _, congrArg Host.Outcome.next hafter, BitVec.toNat_add (memRead m s) 1, rfl, rfl, rfl,
      one_add_skipCycle_of_toNat hzero⟩
  case sdzaM =>
    have hzero := toNat_beq_zero (sub_one_eq_zero_iff (memRead m s))
    have hafter := skipIf_setAcc_of_toNat hzero (memRead m s - 1) s
    exact ⟨_, _, congrArg Host.Outcome.next hafter, toNat_sub_one (memRead m s), rfl, rfl, rfl,
      one_add_skipCycle_of_toNat hzero⟩

/-- Settles O35: a result that is not zero, or that goes elsewhere than to PCL, leaves the write and the skip in order. -/
theorem skipOnCountInMemory : Obligations.SkipOnCountInMemory := by
  intro m s
  refine ⟨fun hordered => ?sizM, fun hordered => ?sdzM⟩
  case sizM =>
    have hiff := add_one_eq_zero_iff (memRead m s)
    have hzero := toNat_beq_zero hiff
    have hnotOpen : ¬(memRead m s + 1 = 0 ∧ target m s = .pcl) := fun ⟨hr, hm⟩ => hordered ⟨hm, hiff.mp hr⟩
    have hafter := storeAndSkip_of_ordered hnotOpen hzero
    exact ⟨_, _, _, congrArg Host.Outcome.next hafter, BitVec.toNat_add (memRead m s) 1, rfl, rfl,
      ramStored_of_ram_eq rfl, rfl, one_add_skipCycle_add_pclCycle_of_toNat hzero m s⟩
  case sdzM =>
    have hiff := sub_one_eq_zero_iff (memRead m s)
    have hzero := toNat_beq_zero hiff
    have hnotOpen : ¬(memRead m s - 1 = 0 ∧ target m s = .pcl) := fun ⟨hr, hm⟩ => hordered ⟨hm, hiff.mp hr⟩
    have hafter := storeAndSkip_of_ordered hnotOpen hzero
    exact ⟨_, _, _, congrArg Host.Outcome.next hafter, toNat_sub_one (memRead m s), rfl, rfl,
      ramStored_of_ram_eq rfl, rfl, one_add_skipCycle_add_pclCycle_of_toNat hzero m s⟩

/-- Settles O28: `JMP` sets `pc`, `CALL` pushes the `pc` of the next instruction and then sets it. -/
theorem jumpAndCall : Obligations.JumpAndCall :=
  fun _ _ => ⟨rfl, ⟨rfl, rfl⟩, rfl, ⟨rfl, rfl⟩⟩

/-- Settles O36: a zero result into PCL is the open case of `storeAndSkip`. -/
theorem pclLoadWithSkipIsOpen : Obligations.PclLoadWithSkipIsOpen := by
  intro m s hm
  refine ⟨fun hmax => ?sizM, fun hone => ?sdzM⟩
  case sizM => exact ⟨_, congrArg Host.Outcome.next (storeAndSkip_of_open ((add_one_eq_zero_iff _).mpr hmax) hm), rfl⟩
  case sdzM => exact ⟨_, congrArg Host.Outcome.next (storeAndSkip_of_open ((sub_one_eq_zero_iff _).mpr hone) hm), rfl⟩

end Sys2Proof.Proofs
end

/-!
Proofs of the family of the table reads (47_tableread): the table addresses as numbers, and the two parts of the table word, one
to `[m]` and one to TBLH.
-/

section
namespace Sys2Proof.Machine

open Sys2Proof.Claims

/-! ## The table address (47_tableread R309) -/

/-- `TABRDC`: the page is bits 9:8 of `pc`. -/
theorem eq_pageAddr_of_toNat {a : ProgAddr} {s : State} (h : a.toNat = s.pc.toNat / 256 * 256 + s.tblp.toNat) :
    a = s.pc.extractLsb' 8 2 ++ s.tblp := by
  have hpage : (s.pc.extractLsb' 8 2).toNat = s.pc.toNat / 256 := by
    rw [BitVec.extractLsb'_toNat]
    omega
  apply BitVec.eq_of_toNat_eq
  rw [h, toNat_append_eq_add, hpage]
  omega

/-- `TABRDL`: the page is the last one. -/
theorem eq_lastPageAddr_of_toNat {a : ProgAddr} {s : State} (h : a.toNat = 0x300 + s.tblp.toNat) :
    a = 0b11#2 ++ s.tblp :=
  BitVec.eq_of_toNat_eq (h.trans (toNat_append_eq_add 0b11#2 s.tblp).symm)

/-! ## The table word (47_tableread R309) -/

theorem toNat_lowByte (w : ProgWord) : (w.extractLsb' 0 8).toNat = w.toNat % 256 :=
  BitVec.extractLsb'_toNat 0 8 w

theorem toNat_highSixBits (w : ProgWord) : (w.extractLsb' 8 6).toNat = w.toNat / 256 := by
  rw [BitVec.extractLsb'_toNat]
  omega

/-- The write of TBLH follows that of `[m]` and changes no RAM. -/
theorem tableRead_splits_word (a : ProgAddr) (m : DataAddr) (s : State) :
    ∃ lo : Byte, lo.toNat = (progRead a s).toNat % 256 ∧ (tableRead a m s).tblh.toNat = (progRead a s).toNat / 256 ∧
      tableRead a m s = { memWrite m lo s with tblh := (tableRead a m s).tblh } ∧ RamStored m lo s (tableRead a m s) :=
  ⟨_, toNat_lowByte _, toNat_highSixBits _, rfl, ramStored_of_ram_eq rfl⟩

/-- An instruction of two cycles that takes note (1) of 70_reset R546. -/
theorem two_add_pclCycle (m : DataAddr) (s : State) : 2 + pclCycle m s = storeCycles m s + 1 := by
  rw [← one_add_pclCycle]
  omega

end Sys2Proof.Machine

namespace Sys2Proof.Proofs

open Sys2Proof.Machine Sys2Proof.Claims

/-- Settles O37: the numbered address is the one the instruction forms (R310, R311), and both instructions are the table read there.
No flag is written, so STATUS and PCL are destinations as any other. -/
theorem tableReads : Obligations.TableReads := by
  intro m s a
  have hcycles := two_add_pclCycle m s
  have ⟨lo, hsplit⟩ := tableRead_splits_word a m s
  refine ⟨fun hpage => ?tabrdc, fun hlast => ?tabrdl, ⟨rfl, hcycles⟩, ⟨rfl, hcycles⟩⟩
  case tabrdc =>
    have hexec : exec (.tabrdcM m) s = .next (tableRead a m s) := by
      rw [eq_pageAddr_of_toNat hpage]
      rfl
    exact ⟨_, lo, hexec, hsplit⟩
  case tabrdl =>
    have hexec : exec (.tabrdlM m) s = .next (tableRead a m s) := by
      rw [eq_lastPageAddr_of_toNat hlast]
      rfl
    exact ⟨_, lo, hexec, hsplit⟩

end Sys2Proof.Proofs
end

/-!
Proofs of the family of the miscellaneous instructions (48_misc): the bits of a byte whose nibbles change places, what the
three clear-WDT instructions do where they are active and where not, and the idle `NOP`.
-/

section
namespace Sys2Proof.Machine

open Sys2Proof.Claims

/-! ## The nibbles interchanged (48_misc R327) -/

theorem getLsbD_swapNibbles (v : Byte) {k : Nat} (hk : k < 8) :
    (swapNibbles v).getLsbD k = v.getLsbD ((k + 4) % 8) := by
  rw [swapNibbles, BitVec.getLsbD_append]
  split
  next hlow =>
    rw [BitVec.getLsbD_extractLsb', decide_eq_true hlow, Bool.true_and, Nat.mod_eq_of_lt (by omega), Nat.add_comm]
  next hhigh =>
    have hwrap : (k + 4) % 8 = 0 + (k - 4) := by omega
    rw [BitVec.getLsbD_extractLsb', decide_eq_true (by omega), Bool.true_and, hwrap]

/-! ## The clear-WDT instructions (48_misc R324 to R326)

OP9 chooses which type is active, and with the WDT disabled neither is (D10, D37). -/

theorem exec_clrWdt_of_active {s : State} (h : (wdtEnabled s && oneTimesClear s) = true) :
    exec .clrWdt s = .next (clearWdtAndFlags s) :=
  congrArg Host.Outcome.next (if_pos h)

theorem exec_clrWdt_of_inactive {s : State} (h : (wdtEnabled s && oneTimesClear s) = false) :
    exec .clrWdt s = .next s :=
  congrArg Host.Outcome.next (if_neg (Bool.eq_false_iff.mp h))

/-- Where the pair is not the active type, neither of it does anything. -/
theorem exec_pair_of_inactive {s : State} (h : (wdtEnabled s && !oneTimesClear s) = false) :
    exec .clrWdt1 s = .next s ∧ exec .clrWdt2 s = .next s :=
  have hneg := Bool.eq_false_iff.mp h
  ⟨congrArg Host.Outcome.next (if_neg hneg), congrArg Host.Outcome.next (if_neg hneg)⟩

/-- Each of the active pair clears where the mark of the other is set, and else leaves its own (D11). -/
theorem exec_pair_of_active {s : State} (h : (wdtEnabled s && !oneTimesClear s) = true) :
    exec .clrWdt1 s = .next (if s.cw2 then { clearWdtAndFlags s with cw1 := false, cw2 := false }
      else { s with cw1 := true }) ∧
    exec .clrWdt2 s = .next (if s.cw1 then { clearWdtAndFlags s with cw1 := false, cw2 := false }
      else { s with cw2 := true }) :=
  ⟨congrArg Host.Outcome.next (if_pos h), congrArg Host.Outcome.next (if_pos h)⟩

/-! ## `NOP` (48_misc R321) -/

/-- A step that fetches 0000H is the increment of `pc` and the ticks of one cycle. -/
theorem step_of_fetch_nop {s : State} (hrun : Running s) (hp : pendingInterrupt s = none) (hf : fetch s = 0x0000) :
    step s = .next (applyTicks 1 (advance s)) := by
  have hd : decode s.option (fetch s) = .instr .nop := by
    rw [hf]
    exact decode_encode (i := .nop) rfl
  exact (nextMove_of_running decode hrun hp).trans (runInstruction_next hd rfl)

end Sys2Proof.Machine

namespace Sys2Proof.Proofs

open Sys2Proof.Machine Sys2Proof.Claims

/-- Settles O26: three are the data-memory write of their byte alone, SWAPA sets ACC alone. No flag is written, so STATUS and PCL
are destinations as any other. -/
theorem clearSetSwapBytes : Obligations.ClearSetSwapBytes := by
  intro m s
  have hcycles := one_add_pclCycle m s
  refine ⟨?clrM, ?setM, ?swapM, ?swapaM, ⟨rfl, hcycles⟩, ⟨rfl, hcycles⟩, ⟨rfl, hcycles⟩, ⟨rfl, rfl⟩⟩
  case clrM => exact bytePut_memWrite m s fun _ _ => BitVec.getLsbD_zero
  case setM => exact bytePut_memWrite m s (by decide)
  case swapM => exact bytePut_memWrite m s fun _ => getLsbD_swapNibbles (memRead m s)
  case swapaM => exact ⟨_, rfl, fun _ => getLsbD_swapNibbles (memRead m s), rfl⟩

/-- Settles O38: the increment of `pc` leaves unclocked what was unclocked, so the cycle of `NOP` ticks nothing. -/
theorem nopOnlyAdvances : Obligations.NopOnlyAdvances := by
  intro s
  refine ⟨rfl, ⟨rfl, rfl⟩, fun hrun hp hf hclock => ?_⟩
  have hadvanced : clocked (advance s) = false := hclock
  rw [step_of_fetch_nop hrun hp hf, applyTicks_of_not_clocked hadvanced]
  rfl

/-- Settles O39: each setting of OP13 and OP9 says which type is active, and the marks what the active pair does. -/
theorem clearWatchdogByOption : Obligations.ClearWatchdogByOption := by
  intro s
  refine ⟨⟨rfl, rfl⟩, ⟨rfl, rfl⟩, ⟨rfl, rfl⟩, fun h13 => ?disabled, fun h13 h9 => ?oneTime, fun h13 h9 => ?pair⟩
  case disabled =>
    have hoff : wdtEnabled s = false := by rw [wdtEnabled, h13, Bool.not_true]
    exact ⟨exec_clrWdt_of_inactive (by rw [hoff, Bool.false_and]), exec_pair_of_inactive (by rw [hoff, Bool.false_and])⟩
  case oneTime =>
    have hon : wdtEnabled s = true := by rw [wdtEnabled, h13, Bool.not_false]
    have hone : oneTimesClear s = true := h9
    exact ⟨exec_clrWdt_of_active (by rw [hon, hone, Bool.and_self]),
      exec_pair_of_inactive (by rw [hone, Bool.not_true, Bool.and_false])⟩
  case pair =>
    have hon : wdtEnabled s = true := by rw [wdtEnabled, h13, Bool.not_false]
    have htwo : oneTimesClear s = false := h9
    obtain ⟨hfirst, hsecond⟩ := exec_pair_of_active (s := s) (by rw [hon, htwo, Bool.not_false, Bool.and_self])
    rw [hfirst, hsecond]
    refine ⟨exec_clrWdt_of_inactive (by rw [htwo, Bool.and_false]), ?_, ?_, ?_, ?_⟩
    all_goals
      intro hmark
      rw [hmark]
      rfl

/-- Settles O40: HALT clears without condition (C11). -/
theorem haltEntersPowerDown : Obligations.HaltEntersPowerDown :=
  fun _ => ⟨rfl, rfl, rfl⟩

end Sys2Proof.Proofs
end

/-!
Proofs of the family of the exceptions (60_exceptions): interrupt acknowledgement, the Timer/event Counter on its cycles and on its
pad, the Watchdog Timer as one count, the other pads, HALT mode, and what a fair run comes to.
-/

section
namespace Sys2Proof.Machine

open Sys2Proof.Claims

/-! ## Interrupts (60_exceptions R410 to R413) -/

theorem extReady_iff {s : State} :
    extReady s = true ↔ s.emi = true ∧ (s.eei = true ∧ s.eif = true) ∧ s.stack.length < 2 := by
  simp [extReady, and_assoc]

theorem tmrReady_iff {s : State} :
    tmrReady s = true ↔ s.emi = true ∧ (s.eti = true ∧ s.tf = true) ∧ s.stack.length < 2 := by
  simp [tmrReady, and_assoc]

theorem pendingInterrupt_external {s : State} (h : extReady s = true) : pendingInterrupt s = some .external := if_pos h

/-- The external interrupt goes first (R413). -/
theorem pendingInterrupt_timer {s : State} (he : ¬extReady s = true) (ht : tmrReady s = true) :
    pendingInterrupt s = some .timer :=
  (if_neg he).trans (if_pos ht)

theorem pendingInterrupt_none {s : State} (he : ¬extReady s = true) (ht : ¬tmrReady s = true) :
    pendingInterrupt s = none :=
  (if_neg he).trans (if_neg ht)

/-- With a ready interrupt and a free level the step of a running CPU acknowledges: `pc` goes behind the stack (R412). -/
theorem nextMove_acknowledges (enc : Enc) {s : State} {src : IntSource} (h : Running s)
    (hp : pendingInterrupt s = some src) (hfree : s.stack.length < 2) :
    nextMove enc s = .next (applyTicks Config.intAckCycles
      { s with
        stack := s.stack ++ [s.pc], pc := vector src, emi := false
        eif := if src = .external then false else s.eif
        tf := if src = .timer then false else s.tf }) := by
  obtain ⟨henv, hrun, hres, hopt⟩ := h
  simp [nextMove, cpuStep, henv, hrun, hres, hopt, hp, acknowledge, push, hfree]

/-! ## The tick of the timer (60_exceptions R423) -/

theorem timerTick_of_max {s : State} (h : s.tmrCnt = 0xFF) : timerTick s = { s with tmrCnt := s.tmrPre, tf := true } :=
  if_pos h

theorem timerTick_of_ne_max {s : State} (h : s.tmrCnt ≠ 0xFF) : timerTick s = { s with tmrCnt := s.tmrCnt + 1 } :=
  if_neg h

theorem timerTick_frame (s : State) :
    timerTick s = { s with tmrCnt := (timerTick s).tmrCnt, tf := (timerTick s).tf } := by
  obtain ⟨-, e⟩ | ⟨-, e⟩ := timerTick_cases s <;> rw [e]

/-- Before the overflow the ticks add to the count. -/
theorem timerTick_iterate_below {s : State} {k : Nat} (h : k < 256 - s.tmrCnt.toNat) :
    timerTick^[k] s = { s with tmrCnt := BitVec.ofNat 8 (s.tmrCnt.toNat + k) } := by
  induction k with
  | zero => rw [Nat.add_zero, BitVec.ofNat_toNat, BitVec.setWidth_eq]; rfl
  | succ k ih =>
    have hne : BitVec.ofNat 8 (s.tmrCnt.toNat + k) ≠ 0xFF := by bv_omega
    rw [Function.iterate_succ_apply', ih (by omega), timerTick_of_ne_max hne, ← Nat.add_assoc, BitVec.ofNat_add _ 1]
    rfl

/-- The tick after the count of FFH is the overflow. -/
theorem timerTick_iterate_overflow (s : State) :
    timerTick^[256 - s.tmrCnt.toNat] s = { s with tmrCnt := s.tmrPre, tf := true } := by
  have hcnt := s.tmrCnt.isLt
  obtain ⟨k, hk⟩ : ∃ k, 256 - s.tmrCnt.toNat = k + 1 := ⟨255 - s.tmrCnt.toNat, by omega⟩
  have hmax : BitVec.ofNat 8 (s.tmrCnt.toNat + k) = 0xFF := by bv_omega
  rw [hk, Function.iterate_succ_apply', timerTick_iterate_below (by omega), timerTick_of_max hmax]

/-! ## The timer on instruction cycles (60_exceptions R424, R426) -/

theorem timerMode_eq_timer {s : State} (h1 : s.tm1 = true) (h0 : s.tm0 = false) : timerMode s = .timer := by
  simp [timerMode, h1, h0]

theorem timerMode_eq_eventCount {s : State} (h1 : s.tm1 = false) (h0 : s.tm0 = true) : timerMode s = .eventCount := by
  simp [timerMode, h1, h0]

theorem timerMode_eq_unused {s : State} (h1 : s.tm1 = false) (h0 : s.tm0 = false) : timerMode s = .unused := by
  simp [timerMode, h1, h0]

/-- The states in which a cycle is a tick of the counter: timer mode with TON = 1, and a running measurement. -/
def CountsCycles (s : State) : Prop :=
  timerMode s = .timer ∧ s.ton = true ∨ timerMode s = .pulseWidth ∧ s.pwmRun = true

/-- The states in which the timer is in its unused mode with TON = 1 (log 15). -/
def UnusedModeOn (s : State) : Prop := timerMode s = .unused ∧ s.ton = true

theorem timerClock_of_countsCycles {s : State} (h : CountsCycles s) : timerClock s = timerTick s := by
  obtain ⟨hm, hon⟩ | ⟨hm, hon⟩ := h <;> simp [timerClock, hm, hon]

theorem timerClock_of_unusedModeOn {s : State} (h : UnusedModeOn s) : timerClock s = unusedModeTick s := by
  simp [timerClock, h.1, h.2]

theorem timerClock_of_eventCount {s : State} (h : timerMode s = .eventCount) : timerClock s = s := by
  simp [timerClock, h]

theorem timerClock_of_no_measurement {s : State} (hm : timerMode s = .pulseWidth) (h : s.pwmRun = false) :
    timerClock s = s := by
  simp [timerClock, hm, h]

theorem timerClock_of_off {s : State} (hton : s.ton = false) (hpwm : s.pwmRun = false) : timerClock s = s := by
  cases hm : timerMode s <;> simp [timerClock, hm, hton, hpwm]

/-- Two functions that agree where a property holds, which the second keeps, agree iterated. -/
theorem iterate_eq_of_agree {f g : State → State} {P : State → Prop} (hagree : ∀ s, P s → f s = g s)
    (hkeep : ∀ s, P s → P (g s)) (n : Nat) {s : State} (h : P s) : f^[n] s = g^[n] s := by
  induction n generalizing s with
  | zero => rfl
  | succ n ih => rw [Function.iterate_succ_apply, Function.iterate_succ_apply, hagree s h, ih (hkeep s h)]

/-- Ticks alone do not leave the states in which a cycle is a tick. -/
theorem CountsCycles.timerTick {s : State} (h : CountsCycles s) : CountsCycles (timerTick s) := by
  rw [timerTick_frame]
  exact h

theorem UnusedModeOn.unusedModeTick {s : State} (h : UnusedModeOn s) : UnusedModeOn (unusedModeTick s) := h

theorem timerClock_iterate_of_countsCycles {s : State} (h : CountsCycles s) (n : Nat) :
    timerClock^[n] s = timerTick^[n] s :=
  iterate_eq_of_agree (f := timerClock) (g := timerTick) (fun _ => timerClock_of_countsCycles)
    (fun _ => CountsCycles.timerTick) n h

theorem timerClock_iterate_of_unusedModeOn {s : State} (h : UnusedModeOn s) (n : Nat) :
    timerClock^[n] s = unusedModeTick^[n] s :=
  iterate_eq_of_agree (f := timerClock) (g := unusedModeTick) (fun _ => timerClock_of_unusedModeOn)
    (fun _ => UnusedModeOn.unusedModeTick) n h

/-- In the unused mode `n` clock edges draw `n` free values and open the count and TF alone; a set TF stays set. -/
theorem unusedModeTick_iterate (n : Nat) (s : State) :
    unusedModeTick^[n] s =
        { s with tmrCnt := (unusedModeTick^[n] s).tmrCnt, tf := (unusedModeTick^[n] s).tf, freeCtr := s.freeCtr + n } ∧
      (s.tf = true → (unusedModeTick^[n] s).tf = true) := by
  induction n generalizing s with
  | zero => exact ⟨rfl, id⟩
  | succ n ih =>
    obtain ⟨hframe, hstays⟩ := ih (unusedModeTick s)
    rw [Function.iterate_succ_apply]
    refine ⟨hframe.trans ?_, fun htf => hstays ?_⟩
    · rw [Nat.add_comm n 1, ← Nat.add_assoc]
      rfl
    · rw [unusedModeTick, htf, Bool.true_or]

/-- The WDT takes no cycle where it is not on the instruction clock, and none of the cycle of HALT (C11, log 18). -/
theorem wdtTakesCycles_eq_false {s : State} (h : wdtOnInstrClock s = false ∨ s.halted = true) :
    wdtTakesCycles s = false := by
  obtain h | h := h <;> simp [wdtTakesCycles, h]

theorem wdtTakesCycles_timerClock (s : State) : wdtTakesCycles (timerClock s) = wdtTakesCycles s := by
  rw [timerClock_frame]
  rfl

theorem runTicks_eq_iterate (n : Nat) {s : State} (h : wdtTakesCycles s = false) :
    runTicks n s = timerClock^[n] s := by
  induction n generalizing s with
  | zero => rfl
  | succ n ih =>
    have hnext : wdtTakesCycles (timerClock s) = false := (wdtTakesCycles_timerClock s).trans h
    rw [Function.iterate_succ_apply, ← ih hnext]
    simp [runTicks, hnext]

/-- Where the WDT takes no cycle, `n` cycles are the timer's alone. -/
theorem applyTicks_eq_iterate {s : State} (h : wdtTakesCycles s = false) (n : Nat) :
    applyTicks n s = timerClock^[n] s := by
  cases hclock : clocked s with
  | true => rw [applyTicks, if_pos hclock, runTicks_eq_iterate n h]
  | false =>
    obtain ⟨hton, hpwm⟩ : s.ton = false ∧ s.pwmRun = false := by simpa [clocked, h] using hclock
    rw [applyTicks_of_not_clocked hclock, Function.iterate_fixed (timerClock_of_off hton hpwm)]

/-- Where the WDT takes no cycle and a cycle is nothing to the timer, no number of cycles does anything. -/
theorem applyTicks_of_timerClock_eq {s : State} (h : wdtTakesCycles s = false) (hc : timerClock s = s) (n : Nat) :
    applyTicks n s = s := by
  rw [applyTicks_eq_iterate h, Function.iterate_fixed hc]

/-! ## A request that ends HALT mode (60_exceptions R443) -/

/-- HALT mode outlasts a change exactly where it sets neither request flag anew. -/
theorem wakeOnRequest_eq {s t : State} (h : t.halted = s.halted) :
    wakeOnRequest s t = { t with halted := s.halted && (s.eif || !t.eif) && (s.tf || !t.tf) } := by
  have hbool : (s.halted && (s.eif || !t.eif) && (s.tf || !t.tf)) =
      (s.halted && !(s.halted && ((t.eif && !s.eif) || (t.tf && !s.tf)))) := by
    cases s.halted <;> cases s.eif <;> cases t.eif <;> simp [Bool.or_comm]
  rw [hbool, wakeOnRequest]
  split
  next hwake => rw [hwake, Bool.not_true, Bool.and_false]
  next hwake => rw [Bool.eq_false_iff.mpr hwake, Bool.not_false, Bool.and_true, ← h]

theorem wakeOnRequest_of_same_eif {s t : State} (h : t.halted = s.halted) (he : t.eif = s.eif) :
    wakeOnRequest s t = { t with halted := s.halted && (s.tf || !t.tf) } := by
  rw [wakeOnRequest_eq h, he, Bool.or_not_self, Bool.and_true]

theorem wakeOnRequest_of_same_tf {s t : State} (h : t.halted = s.halted) (hf : t.tf = s.tf) :
    wakeOnRequest s t = { t with halted := s.halted && (s.eif || !t.eif) } := by
  rw [wakeOnRequest_eq h, hf, Bool.or_not_self, Bool.and_true]

theorem wakeOnRequest_of_same_flags {s t : State} (he : t.eif = s.eif) (hf : t.tf = s.tf) : wakeOnRequest s t = t := by
  simp [wakeOnRequest, he, hf]

/-! ## The timer on changes of the TMR pad (60_exceptions R425, R426) -/

theorem timerEdge_of_timer {s : State} (h : timerMode s = .timer) (level : Bool) : timerEdge level s = s := by
  simp [timerEdge, h]

theorem timerEdge_of_unusedModeOn {s : State} (h : UnusedModeOn s) (level : Bool) :
    timerEdge level s = unusedModeTick s := by
  simp [timerEdge, h.1, h.2]

/-- Outside pulse width mode a timer that is off takes no edge. -/
theorem timerEdge_of_off {s : State} (h1 : s.tm1 = false) (hton : s.ton = false) (level : Bool) :
    timerEdge level s = s := by
  cases h0 : s.tm0 with
  | false => simp [timerEdge, timerMode_eq_unused h1 h0, hton]
  | true => simp [timerEdge, timerMode_eq_eventCount h1 h0, hton]

/-- In event count mode the edge away from TE is the active one. -/
theorem timerEdge_of_active {s : State} (hm : timerMode s = .eventCount) (hton : s.ton = true) {level : Bool}
    (h : level ≠ s.te) : timerEdge level s = timerTick s := by
  simp [timerEdge, hm, hton, h]

theorem timerEdge_of_not_active {s : State} (hm : timerMode s = .eventCount) {level : Bool} (h : level = s.te) :
    timerEdge level s = s := by
  simp [timerEdge, hm, h]

/-- In pulse width mode the edge to TE starts (D14). -/
theorem timerEdge_of_start {s : State} (hm : timerMode s = .pulseWidth) {level : Bool} (h : level = s.te)
    (hton : s.ton = true) (hpwm : s.pwmRun = false) : timerEdge level s = { s with pwmRun := true } := by
  simp [timerEdge, hm, hton, hpwm, h]

theorem timerEdge_of_stop {s : State} (hm : timerMode s = .pulseWidth) {level : Bool} (h : level ≠ s.te)
    (hpwm : s.pwmRun = true) : timerEdge level s = { s with pwmRun := false, ton := false } := by
  simp [timerEdge, hm, hpwm, h]

theorem timerEdge_of_no_start_or_stop {s : State} (hm : timerMode s = .pulseWidth) {level : Bool}
    (hstart : ¬(level = s.te ∧ s.ton = true ∧ s.pwmRun = false)) (hstop : ¬(level ≠ s.te ∧ s.pwmRun = true)) :
    timerEdge level s = s := by
  have hs : ¬(s.ton && !s.pwmRun && level == s.te) = true := by simpa [and_comm, and_assoc, and_left_comm] using hstart
  have ht : ¬(s.pwmRun && level != s.te) = true := by simpa [and_comm] using hstop
  simp only [timerEdge, hm, if_neg hs, if_neg ht]

/-- A change of the TMR pad with RES high is the timer's edge, and the wake-up that follows from it. -/
theorem tmrPad_change {level : Bool} {s : State} (hres : s.resPad = true) (hpad : s.tmrPad = !level) :
    envStep (.pad .tmr level) s = wakeOnRequest s (timerEdge level { s with tmrPad := level }) := by
  refine if_pos ?_
  rw [hres, hpad]
  cases level <;> rfl

/-- An edge that sets no request flag wakes nothing. -/
theorem tmrPad_change_of_edge {level : Bool} {s t : State} (hres : s.resPad = true) (hpad : s.tmrPad = !level)
    (h : timerEdge level { s with tmrPad := level } = t) (he : t.eif = s.eif) (hf : t.tf = s.tf) :
    envStep (.pad .tmr level) s = t := by
  rw [tmrPad_change hres hpad, h, wakeOnRequest_of_same_flags he hf]

/-- In the unused mode with TON = 1 the edge opens the count and TF, and a TF newly set ends HALT mode (log 15). -/
theorem tmrPad_change_of_unusedModeOn {level : Bool} {s : State} (hres : s.resPad = true) (hpad : s.tmrPad = !level)
    (h : UnusedModeOn s) :
    envStep (.pad .tmr level) s =
      { unusedModeTick { s with tmrPad := level } with
        halted := s.halted && (s.tf || !(unusedModeTick { s with tmrPad := level }).tf) } := by
  have hon : UnusedModeOn { s with tmrPad := level } := h
  rw [tmrPad_change hres hpad, timerEdge_of_unusedModeOn hon, wakeOnRequest_of_same_eif]
  · rfl
  · rfl

/-! ## The other pads (60_exceptions R442, R450, R451; 70_reset R503) -/

/-- The falling edge of INT sets EIF, and ends HALT mode where EIF was 0. -/
theorem intPad_falls {s : State} (hres : s.resPad = true) (hpad : s.intPad = true) :
    envStep (.pad .int false) s = { s with intPad := false, eif := true, halted := s.halted && s.eif } := by
  have hedge : envStep (.pad .int false) s = wakeOnRequest s { s with intPad := false, eif := true } := by
    refine if_pos ?_
    rw [hres, hpad]
    rfl
  rw [hedge, wakeOnRequest_of_same_tf, Bool.not_true, Bool.or_false]
  · rfl
  · rfl

theorem intPad_rises (s : State) : envStep (.pad .int true) s = { s with intPad := true } := by
  refine if_neg ?_
  rw [Bool.not_true, Bool.and_false]
  exact Bool.false_ne_true

/-- RES going low resets at once. -/
theorem resPad_falls {s : State} (h : s.resPad = true) :
    envStep (.pad .res false) s = applyReset (if s.halted then .resHalt else .resNormal) { s with resPad := false } := by
  refine if_pos ?_
  rw [h]
  rfl

theorem getLsbD_setBitTo {w : Nat} (v : BitVec w) (b : Bool) {i k : Nat} (hk : k < w) :
    (setBitTo v i b).getLsbD k = if k = i then b else v.getLsbD k := by
  have hmask : (1#w <<< i).getLsbD k = decide (k = i) := by
    have htwo : 1#w <<< i = BitVec.twoPow w i := rfl
    rw [htwo, BitVec.getLsbD_twoPow]
    by_cases hki : k = i
    · subst hki; simp [hk]
    · simp [hki, Ne.symm hki]
  cases b with
  | true =>
    have hset : setBitTo v i true = v ||| (1#w <<< i) := rfl
    rw [hset, BitVec.getLsbD_or, hmask]
    split <;> simp [*]
  | false =>
    have hclear : setBitTo v i false = v &&& ~~~(1#w <<< i) := rfl
    rw [hclear, BitVec.getLsbD_and, getLsbD_not_of_lt _ hk, hmask]
    split <;> simp [*]

/-! ## The Watchdog Timer as one count (60_exceptions R431, R432)

The 8 stages stand before the prescaler (D16), so the two registers hold one number of 15 bits. -/

/-- The ticks in the stages and the prescaler. -/
def wdtCount (s : State) : Nat := s.wdtCnt.toNat + 256 * s.wdtPre.toNat

/-- `s` with `n` ticks in the stages and the prescaler. -/
def setWdtCount (n : Nat) (s : State) : State :=
  { s with wdtCnt := BitVec.ofNat 8 n, wdtPre := BitVec.ofNat 7 (n / 256) }

/-- The ticks from a cleared WDT to its time-out. -/
def wdtPeriod (s : State) : Nat := 256 * wdtRatio s

theorem wdtCount_lt (s : State) : wdtCount s < 32768 := by
  have hcnt := s.wdtCnt.isLt
  have hpre := s.wdtPre.isLt
  unfold wdtCount
  omega

theorem wdtCount_setWdtCount {n : Nat} (h : n < 32768) (s : State) : wdtCount (setWdtCount n s) = n := by
  simp only [wdtCount, setWdtCount, BitVec.toNat_ofNat]
  omega

theorem setWdtCount_wdtCount (s : State) : setWdtCount (wdtCount s) s = s := by
  have hcnt := s.wdtCnt.isLt
  have hlow : BitVec.ofNat 8 (wdtCount s) = s.wdtCnt := by
    apply BitVec.eq_of_toNat_eq
    rw [BitVec.toNat_ofNat, wdtCount]
    omega
  have hhigh : BitVec.ofNat 7 (wdtCount s / 256) = s.wdtPre := by
    have hdiv : wdtCount s / 256 = s.wdtPre.toNat := by
      rw [wdtCount]
      omega
    rw [hdiv, BitVec.ofNat_toNat, BitVec.setWidth_eq]
  rw [setWdtCount, hlow, hhigh]

theorem wdtPeriod_eq (s : State) : wdtPeriod s = 256 * 2 ^ (s.wdts.toNat % 8) := by
  rw [wdtPeriod, wdtRatio, BitVec.extractLsb'_toNat]
  rfl

/-- The largest ratio is 128. -/
theorem wdtPeriod_le (s : State) : wdtPeriod s ≤ 32768 := by
  have hexp : 2 ^ (s.wdts.toNat % 8) ≤ 2 ^ 7 := Nat.pow_le_pow_right (by decide) (by omega)
  rw [wdtPeriod_eq]
  omega

/-- A tick is a time-out where it overflows the stages with the period reached, and else adds to the count. -/
theorem wdtTick_eq (s : State) :
    wdtTick s =
      if (wdtCount s + 1) % 256 = 0 ∧ wdtPeriod s ≤ wdtCount s + 1 then (wdtTimeout s, true)
      else (setWdtCount (wdtCount s + 1) s, false) := by
  have hcnt := s.wdtCnt.isLt
  have hoverflow : s.wdtCnt + 1 = 0 ↔ s.wdtCnt.toNat = 255 := add_one_eq_zero_iff s.wdtCnt
  unfold wdtTick wdtPeriod setWdtCount wdtCount
  split
  next hzero =>
    have hmax := hoverflow.mp hzero
    by_cases hratio : wdtRatio s ≤ s.wdtPre.toNat + 1
    · rw [if_pos hratio, if_pos (by omega)]
    · have hlow : BitVec.ofNat 8 (s.wdtCnt.toNat + 256 * s.wdtPre.toNat + 1) = 0 := by bv_omega
      have hhigh : BitVec.ofNat 7 ((s.wdtCnt.toNat + 256 * s.wdtPre.toNat + 1) / 256) = s.wdtPre + 1 := by bv_omega
      rw [if_neg hratio, if_neg (by omega), hlow, hhigh]
  next hcount =>
    have hne := mt hoverflow.mpr hcount
    have hlow : BitVec.ofNat 8 (s.wdtCnt.toNat + 256 * s.wdtPre.toNat + 1) = s.wdtCnt + 1 := by bv_omega
    have hhigh : BitVec.ofNat 7 ((s.wdtCnt.toNat + 256 * s.wdtPre.toNat + 1) / 256) = s.wdtPre := by bv_omega
    rw [if_neg (by omega), hlow, hhigh]

/-- Below the period a tick adds to the count. -/
theorem wdtTick_setWdtCount_of_lt {s : State} {n : Nat} (h : n + 1 < wdtPeriod s) :
    wdtTick (setWdtCount n s) = (setWdtCount (n + 1) s, false) := by
  have hmax := wdtPeriod_le s
  have hperiod : wdtPeriod (setWdtCount n s) = wdtPeriod s := rfl
  rw [wdtTick_eq, wdtCount_setWdtCount (by omega), hperiod, if_neg (by omega)]
  rfl

/-- The tick that completes the period is a time-out. -/
theorem wdtTick_setWdtCount_of_eq {s : State} {n : Nat} (h : n + 1 = wdtPeriod s) :
    wdtTick (setWdtCount n s) = (wdtTimeout (setWdtCount n s), true) := by
  have hmax := wdtPeriod_le s
  have hperiod : wdtPeriod (setWdtCount n s) = wdtPeriod s := rfl
  have hstages : wdtPeriod s % 256 = 0 := Nat.mul_mod_right 256 (wdtRatio s)
  rw [wdtTick_eq, wdtCount_setWdtCount (by omega), hperiod, if_pos (by omega)]

/-- Ticks below the period from a cleared WDT. -/
theorem wdtTick_iterate_of_lt {s : State} {n : Nat} (h0 : setWdtCount 0 s = s) (h : n < wdtPeriod s) :
    (fun u => (wdtTick u).1)^[n] s = setWdtCount n s := by
  induction n with
  | zero => exact h0.symm
  | succ n ih => rw [Function.iterate_succ_apply', ih (by omega), wdtTick_setWdtCount_of_lt h]

/-! ## The time-out (60_exceptions R434, R435) -/

theorem wdtTimeout_of_running {s : State} (h : s.halted = false) : wdtTimeout s = applyReset .wdtNormal s := by
  rw [wdtTimeout, h]
  rfl

theorem wdtTimeout_of_halted {s : State} (h : s.halted = true) : wdtTimeout s = applyReset .wdtHalt s := by
  rw [wdtTimeout, h]
  rfl

/-- The reset of a running CPU clears the count, so it does not matter what it was. -/
theorem wdtTimeout_setWdtCount {s : State} (h : s.halted = false) (n : Nat) :
    wdtTimeout (setWdtCount n s) = applyReset .wdtNormal s :=
  wdtTimeout_of_running (s := setWdtCount n s) h

/-- Whatever the time-out is, the chip runs after it. -/
theorem wdtTimeout_halted (s : State) : (wdtTimeout s).halted = false := by
  unfold wdtTimeout
  split <;> rfl

/-! ## The WDT on the instruction clock (60_exceptions R433, R434) -/

/-- The WDT counts the cycles and the timer does not: the CPU runs, the timer is off. -/
structure WdtClocked (s : State) : Prop where
  onInstrClock : wdtOnInstrClock s = true
  running : s.halted = false
  timerOff : s.ton = false
  noMeasurement : s.pwmRun = false

theorem WdtClocked.takesCycles {s : State} (h : WdtClocked s) : wdtTakesCycles s = true := by
  rw [wdtTakesCycles, h.onInstrClock, h.running, Bool.not_false, Bool.and_self]

/-- A cycle is the tick of the WDT: after a time-out the cycles left are dropped. -/
theorem WdtClocked.runTicks_succ {s : State} (h : WdtClocked s) (k : Nat) :
    runTicks (k + 1) s = if (wdtTick s).2 then (wdtTick s).1 else runTicks k (wdtTick s).1 := by
  have htick : wdtTick s = ((wdtTick s).1, (wdtTick s).2) := rfl
  simp only [runTicks, timerClock_of_off h.timerOff h.noMeasurement, h.takesCycles, if_true]
  rw [htick]
  cases (wdtTick s).2 <;> rfl

theorem WdtClocked.setWdtCount {s : State} (h : WdtClocked s) (n : Nat) : WdtClocked (setWdtCount n s) := { h with }

theorem runTicks_of_lt_wdtPeriod {s : State} (h : WdtClocked s) {n k : Nat} (hk : n + k < wdtPeriod s) :
    runTicks k (setWdtCount n s) = setWdtCount (n + k) s := by
  induction k generalizing n with
  | zero => rfl
  | succ k ih =>
    rw [(h.setWdtCount n).runTicks_succ, wdtTick_setWdtCount_of_lt (by omega), if_neg Bool.false_ne_true, ih (by omega)]
    congr 1
    omega

theorem runTicks_of_wdtPeriod_le {s : State} (h : WdtClocked s) {n k : Nat} (hn : n < wdtPeriod s)
    (hk : wdtPeriod s ≤ n + k) : runTicks k (setWdtCount n s) = applyReset .wdtNormal s := by
  induction k generalizing n with
  | zero => omega
  | succ k ih =>
    rw [(h.setWdtCount n).runTicks_succ]
    by_cases hlast : n + 1 = wdtPeriod s
    · rw [wdtTick_setWdtCount_of_eq hlast, if_pos rfl, wdtTimeout_setWdtCount h.running]
    · rw [wdtTick_setWdtCount_of_lt (by omega), if_neg Bool.false_ne_true, ih (by omega) (by omega)]

theorem applyTicks_of_wdtClocked {s : State} (h : WdtClocked s) (k : Nat) :
    applyTicks k s = runTicks k (setWdtCount (wdtCount s) s) := by
  have hclock : clocked s = true := by rw [clocked, h.takesCycles, Bool.or_true]
  rw [setWdtCount_wdtCount, applyTicks, if_pos hclock]

/-! ## What leaves the WDT alone

All moves but resets, RC ticks and the clear-WDT instructions leave the count, and none of them but `HALT` enters HALT mode. -/

/-- `t` has the WDT's count, the option word and RES as `s` has them, and is not halted where `s` is not. -/
structure KeepsWatch (s t : State) : Prop where
  wdtCnt : t.wdtCnt = s.wdtCnt
  wdtPre : t.wdtPre = s.wdtPre
  option : t.option = s.option
  resPad : t.resPad = s.resPad
  awake : s.halted = false → t.halted = false

theorem KeepsWatch.refl (s : State) : KeepsWatch s s := ⟨rfl, rfl, rfl, rfl, id⟩

theorem KeepsWatch.trans {s t u : State} (h : KeepsWatch s t) (k : KeepsWatch t u) : KeepsWatch s u where
  wdtCnt := k.wdtCnt.trans h.wdtCnt
  wdtPre := k.wdtPre.trans h.wdtPre
  option := k.option.trans h.option
  resPad := k.resPad.trans h.resPad
  awake := k.awake ∘ h.awake

theorem KeepsWatch.wdtCount_eq {s t : State} (h : KeepsWatch s t) : wdtCount t = wdtCount s := by
  rw [wdtCount, wdtCount, h.wdtCnt, h.wdtPre]

theorem KeepsWatch.wdtOnRc_eq {s t : State} (h : KeepsWatch s t) : wdtOnRc t = wdtOnRc s := by
  rw [wdtOnRc, wdtOnRc, wdtEnabled, wdtEnabled, h.option]

theorem SameHidden.keepsWatch {s t : State} (h : SameHidden s t) : KeepsWatch s t :=
  ⟨h.wdtCnt, h.wdtPre, h.option, h.resPad, fun hs => h.halted.trans hs⟩

theorem exec_keepsWatch {i : Instr} {s t : State} (h : exec i s = .next t)
    (hi : i ∉ [.halt, .clrWdt, .clrWdt1, .clrWdt2]) : KeepsWatch s t := by
  have he := exec_effect i s
  rw [h] at he
  cases he with
  | data ht => exact ht.keepsWatch
  | table _ ht => exact { ht.keepsWatch with }
  | call => exact ⟨rfl, rfl, rfl, rfl, id⟩
  | ret _ _ ht => exact { ht.keepsWatch with }
  | clearing hc => exact absurd (List.mem_cons_of_mem _ hc) hi
  | halt hh => exact absurd (hh ▸ List.mem_cons_self) hi

theorem timerClock_keepsWatch (s : State) : KeepsWatch s (timerClock s) := by
  rw [timerClock_frame]
  exact ⟨rfl, rfl, rfl, rfl, id⟩

/-- A WDT on its RC oscillator takes no instruction cycle (R436). -/
theorem wdtTakesCycles_of_wdtOnRc {s : State} (h : wdtOnRc s = true) : wdtTakesCycles s = false := by
  obtain ⟨-, hclock⟩ : wdtEnabled s = true ∧ s.option.getLsbD 12 = false := by simpa [wdtOnRc] using h
  rw [wdtTakesCycles, wdtOnInstrClock, hclock, Bool.and_false, Bool.false_and]

theorem applyTicks_keepsWatch {s : State} (h : wdtOnRc s = true) (n : Nat) : KeepsWatch s (applyTicks n s) := by
  rw [applyTicks_eq_iterate (wdtTakesCycles_of_wdtOnRc h)]
  induction n with
  | zero => exact .refl s
  | succ n ih =>
    rw [Function.iterate_succ_apply']
    exact ih.trans (timerClock_keepsWatch _)

theorem cpuStep_keepsWatch {enc : Enc} {s t : State} (h : cpuStep enc s = .next t) (hrc : wdtOnRc s = true)
    (hi : ∀ i, enc s.option (fetch s) = .instr i → i ∉ [.halt, .clrWdt, .clrWdt1, .clrWdt2]) : KeepsWatch s t := by
  obtain ⟨-, ⟨-, rfl⟩ | ⟨-, ⟨src, -, rfl⟩ | ⟨i, u, -, hd, hexec, rfl⟩⟩⟩ := cpuStep_next h
  · exact .refl t
  · have hack : KeepsWatch s (acknowledge src s) := ⟨rfl, rfl, rfl, rfl, id⟩
    exact hack.trans (applyTicks_keepsWatch (hack.wdtOnRc_eq.trans hrc) _)
  · have hu : KeepsWatch s u := { exec_keepsWatch hexec (hi i hd) with }
    exact hu.trans (applyTicks_keepsWatch (hu.wdtOnRc_eq.trans hrc) _)

theorem wakeOnRequest_keepsWatch (s t : State) : KeepsWatch t (wakeOnRequest s t) := by
  unfold wakeOnRequest
  split
  · exact ⟨rfl, rfl, rfl, rfl, fun _ => rfl⟩
  · exact .refl t

theorem timerEdge_keepsWatch (level : Bool) (s : State) : KeepsWatch s (timerEdge level s) := by
  rw [timerEdge_frame]
  exact ⟨rfl, rfl, rfl, rfl, id⟩

theorem setIntPad_keepsWatch (level : Bool) (s : State) : KeepsWatch s (setIntPad level s) := by
  unfold setIntPad
  split
  · have hedge : KeepsWatch s { s with intPad := level, eif := true } := ⟨rfl, rfl, rfl, rfl, id⟩
    exact hedge.trans (wakeOnRequest_keepsWatch s _)
  · exact ⟨rfl, rfl, rfl, rfl, id⟩

theorem setTmrPad_keepsWatch (level : Bool) (s : State) : KeepsWatch s (setTmrPad level s) := by
  have hpad : KeepsWatch s { s with tmrPad := level } := ⟨rfl, rfl, rfl, rfl, id⟩
  unfold setTmrPad
  split
  · exact (hpad.trans (timerEdge_keepsWatch level _)).trans (wakeOnRequest_keepsWatch s _)
  · exact hpad

theorem setPaPad_keepsWatch (i : Fin 8) (level : Bool) (s : State) : KeepsWatch s (setPaPad i level s) := by
  unfold setPaPad
  split
  · exact ⟨rfl, rfl, rfl, rfl, fun h => by simp [h]⟩
  · exact .refl s

theorem setPbPad_keepsWatch (i : Fin 8) (level : Bool) (s : State) : KeepsWatch s (setPbPad i level s) := by
  unfold setPbPad
  split
  · exact ⟨rfl, rfl, rfl, rfl, id⟩
  · exact .refl s

theorem setPcPad_keepsWatch (i : Fin 2) (level : Bool) (s : State) : KeepsWatch s (setPcPad i level s) := by
  unfold setPcPad
  split
  · exact ⟨rfl, rfl, rfl, rfl, id⟩
  · exact .refl s

/-- Every pad but RES leaves the WDT alone. -/
theorem setPad_keepsWatch {p : Pad} (hp : p ≠ .res) (level : Bool) (s : State) : KeepsWatch s (setPad p level s) :=
  match p with
  | .int => setIntPad_keepsWatch level s
  | .tmr => setTmrPad_keepsWatch level s
  | .res => absurd rfl hp
  | .pa i => setPaPad_keepsWatch i level s
  | .pb i => setPbPad_keepsWatch i level s
  | .pc i => setPcPad_keepsWatch i level s

/-! ## What a fair run comes to (60_exceptions R436, R454)

RC ticks keep coming and the count has 15 bits, so a run cannot for ever keep the count from falling and add to it at each RC
tick. -/

/-- The move `e` leads from `t` to a state of `P`; the count does not fall, and rises at an RC tick. -/
def LeadsOn (enc : Enc) (P : State → Prop) (e : Event) (t : State) : Prop :=
  ∃ u, move enc e t = .next u ∧ P u ∧ wdtCount t ≤ wdtCount u ∧ (e = .rcTick → wdtCount t < wdtCount u)

/-- After `n` moves the run stands at a state of `P` with a count of at least `c`. -/
def Reached (enc : Enc) (sched : Schedule) (s : State) (P : State → Prop) (c n : Nat) : Prop :=
  ∃ t, runUnder enc sched n s = .next t ∧ P t ∧ c ≤ wdtCount t

section
variable {enc : Enc} {sched : Schedule} {s : State} {P : State → Prop}

/-- One move more keeps the count, and an RC tick adds to it. -/
theorem Reached.next {c n : Nat} (hr : Reached enc sched s P c n)
    (hlead : ∀ t, runUnder enc sched n s = .next t → P t → LeadsOn enc P (sched n) t) :
    Reached enc sched s P c (n + 1) ∧ (sched n = .rcTick → Reached enc sched s P (c + 1) (n + 1)) := by
  obtain ⟨t, hrun, hP, hc⟩ := hr
  obtain ⟨u, hmove, hPu, hle, hlt⟩ := hlead t hrun hP
  have hnext := (runUnder_succ hrun).trans hmove
  exact ⟨⟨u, hnext, hPu, hc.trans hle⟩, fun htick => ⟨u, hnext, hPu, hc.trans_lt (hlt htick)⟩⟩

theorem Reached.later {c n k : Nat} (hr : Reached enc sched s P c n) (hnk : n ≤ k)
    (hlead : ∀ m t, runUnder enc sched m s = .next t → P t → LeadsOn enc P (sched m) t) :
    Reached enc sched s P c k := by
  induction k, hnk using Nat.le_induction with
  | base => exact hr
  | succ k _ ih => exact (ih.next (hlead k)).1

/-- In a fair run whose moves all lead on the count passes every number. -/
theorem Fair.count_passes (hf : Fair sched) (hs : P s)
    (hlead : ∀ n t, runUnder enc sched n s = .next t → P t → LeadsOn enc P (sched n) t) (c : Nat) :
    ∃ n, Reached enc sched s P c n := by
  induction c with
  | zero => exact ⟨0, s, rfl, hs, Nat.zero_le _⟩
  | succ c ih =>
    obtain ⟨n, hn⟩ := ih
    obtain ⟨k, hnk, htick⟩ := hf.rcTick n
    exact ⟨k + 1, ((hn.later hnk hlead).next (hlead k)).2 htick⟩

/-- So a fair run comes to a move that does not lead on. -/
theorem Fair.comes_to {D : Event → State → Prop} (hf : Fair sched) (hs : P s)
    (hmove : ∀ n t, runUnder enc sched n s = .next t → P t → D (sched n) t ∨ LeadsOn enc P (sched n) t) :
    ∃ n t, runUnder enc sched n s = .next t ∧ D (sched n) t := by
  by_contra hno
  have hlead n t (hrun : runUnder enc sched n s = .next t) (hP : P t) : LeadsOn enc P (sched n) t :=
    (hmove n t hrun hP).resolve_left fun hD => hno ⟨n, t, hrun, hD⟩
  obtain ⟨n, t, -, -, hc⟩ := hf.count_passes hs hlead 32768
  exact absurd (wdtCount_lt t) (Nat.not_lt.mpr hc)

end

/-! ## The WDT on its RC oscillator (60_exceptions R434 to R436) -/

/-- The WDT is on its RC oscillator, RES is high, and HALT mode is as `halted` says. -/
structure RcWatched (halted : Bool) (s : State) : Prop where
  onRc : wdtOnRc s = true
  resHigh : s.resPad = true
  mode : s.halted = halted

theorem RcWatched.keepsWatch {b : Bool} {s t : State} (h : RcWatched b s) (k : KeepsWatch s t) (hmode : t.halted = b) :
    RcWatched b t :=
  ⟨k.wdtOnRc_eq.trans h.onRc, k.resPad.trans h.resHigh, hmode⟩

/-- A move that leaves the WDT alone, other than an RC tick, leads on. -/
theorem leadsOn_of_keepsWatch {enc : Enc} {P : State → Prop} {e : Event} {t u : State} (h : move enc e t = .next u)
    (k : KeepsWatch t u) (hP : P u) (he : e ≠ .rcTick) : LeadsOn enc P e t :=
  ⟨u, h, hP, k.wdtCount_eq.ge, fun hr => absurd hr he⟩

theorem rcTick_of_counting {s : State} (hrc : wdtOnRc s = true) (hres : s.resPad = true) :
    envStep .rcTick s = (wdtTick s).1 :=
  if_pos (by rw [hrc, hres, Bool.and_self])

theorem rcTick_of_not_counting {s : State} (h : (wdtOnRc s && s.resPad) = false) : envStep .rcTick s = s :=
  if_neg (Bool.eq_false_iff.mp h)

/-- An RC tick is a time-out or adds one to the count. -/
theorem RcWatched.rcTick {b : Bool} {s : State} (h : RcWatched b s) :
    envStep .rcTick s = wdtTimeout s ∨
      envStep .rcTick s = setWdtCount (wdtCount s + 1) s ∧ wdtCount s + 1 < 32768 := by
  rw [rcTick_of_counting h.onRc h.resHigh, wdtTick_eq]
  split
  next => exact .inl rfl
  next hcount =>
    have hmax := wdtPeriod_le s
    have hlt := wdtCount_lt s
    exact .inr ⟨rfl, by omega⟩

/-- Where an RC tick is no time-out it leads on, as the property does not look at the count. -/
theorem RcWatched.leadsOn_rcTick {b : Bool} {s : State} (h : RcWatched b s) (enc : Enc) {P : State → Prop}
    (hP : ∀ n, P (setWdtCount n s)) : envStep .rcTick s = wdtTimeout s ∨ LeadsOn enc P .rcTick s := by
  obtain hout | ⟨hcount, hlt⟩ := h.rcTick
  · exact .inl hout
  · have hrise : wdtCount s < wdtCount (setWdtCount (wdtCount s + 1) s) := by
      rw [wdtCount_setWdtCount hlt]
      exact Nat.lt_succ_self _
    exact .inr ⟨_, congrArg Host.Outcome.next hcount, hP _, hrise.le, fun _ => hrise⟩

/-- The move is the RC tick that resets the running CPU. -/
def TimesOut (enc : Enc) (e : Event) (t : State) : Prop :=
  e = .rcTick ∧ move enc e t = .next (applyReset .wdtNormal t)

/-- While the CPU is not halted, a move that is no power-on, no change of RES and runs no HALT or clear-WDT instruction is the WDT's
reset or leads on. -/
theorem RcWatched.timesOut_or_leadsOn {enc : Enc} {e : Event} {t u : State} (h : RcWatched false t)
    (hmove : move enc e t = .next u) (hpower : ∀ d, e ≠ .powerOn d) (hres : ∀ level, e ≠ .pad .res level)
    (hi : ∀ i, enc t.option (fetch t) = .instr i → i ∉ [.halt, .clrWdt, .clrWdt1, .clrWdt2]) :
    TimesOut enc e t ∨ LeadsOn enc (RcWatched false) e t := by
  have lead (k : KeepsWatch t u) : e ≠ .rcTick → LeadsOn enc (RcWatched false) e t :=
    leadsOn_of_keepsWatch hmove k (h.keepsWatch k (k.awake h.mode))
  cases e with
  | cpu => exact .inr (lead (cpuStep_keepsWatch hmove h.onRc hi) nofun)
  | pad p level =>
    have hp : p ≠ .res := fun hp => hres level (hp ▸ rfl)
    have hu : setPad p level t = u := Host.Outcome.next.inj hmove
    exact .inr (lead (hu ▸ setPad_keepsWatch hp level t) nofun)
  | rcTick =>
    refine (h.leadsOn_rcTick enc fun n => { h with }).imp_left fun hout => ⟨rfl, ?_⟩
    exact congrArg Host.Outcome.next (hout.trans (wdtTimeout_of_running h.mode))
  | powerOn d => exact absurd rfl (hpower d)

/-! ## HALT mode (60_exceptions R440, R441) -/

/-- An idle CPU's step answers its own state (log 19). -/
theorem cpuStep_of_idle (enc : Enc) {s : State} (hopt : optionWellFormed s.option = true)
    (h : s.halted = true ∨ s.resPad = false) : cpuStep enc s = .next s := by
  obtain h | h := h <;> simp [cpuStep, hopt, h]

/-- A machine whose step answers its own state stays there. -/
theorem core_run_of_step_eq {M : Host.Core} {s : M.State} (h : M.step s = .next s) (n : Nat) : M.run n s = .next s := by
  induction n with
  | zero => rfl
  | succ n ih => simp only [Host.Core.run, h, ih]

/-- A halted chip with the WDT on its RC oscillator and an option word that the spec covers. -/
structure WatchedSleep (s : State) : Prop extends RcWatched true s where
  configured : optionWellFormed s.option = true

/-- The move ends HALT mode. -/
def Wakes (enc : Enc) (e : Event) (t : State) : Prop := ∃ u, move enc e t = .next u ∧ u.halted = false

/-- While the chip is halted, every move wakes it or leads on. -/
theorem WatchedSleep.wakes_or_leadsOn {t : State} (h : WatchedSleep t) (enc : Enc) (e : Event) :
    Wakes enc e t ∨ LeadsOn enc WatchedSleep e t := by
  have settle {u : State} (hmove : move enc e t = .next u) (k : KeepsWatch t u) (he : e ≠ .rcTick) :
      Wakes enc e t ∨ LeadsOn enc WatchedSleep e t := by
    cases hu : u.halted with
    | false => exact .inl ⟨u, hmove, hu⟩
    | true =>
      have hstill : WatchedSleep u := ⟨h.toRcWatched.keepsWatch k hu, k.option ▸ h.configured⟩
      exact .inr (leadsOn_of_keepsWatch hmove k hstill he)
  cases e with
  | cpu => exact settle (cpuStep_of_idle enc h.configured (.inl h.mode)) (.refl t) nofun
  | pad p level =>
    by_cases hp : p = .res
    · subst hp
      cases level with
      | false =>
        have hfall := resPad_falls h.resHigh
        rw [h.mode] at hfall
        exact .inl ⟨_, congrArg Host.Outcome.next hfall, rfl⟩
      | true =>
        have hstay : envStep (.pad .res true) t = { t with resPad := true } := by simp [envStep, setPad, setResPad]
        exact settle (congrArg Host.Outcome.next hstay) ⟨rfl, rfl, rfl, h.resHigh.symm, id⟩ nofun
    · exact settle rfl (setPad_keepsWatch hp level t) nofun
  | rcTick =>
    refine (h.leadsOn_rcTick enc fun n => { h with }).imp_left fun hout => ?_
    exact ⟨_, congrArg Host.Outcome.next hout, wdtTimeout_halted t⟩
  | powerOn d => exact .inl ⟨_, rfl, rfl⟩

end Sys2Proof.Machine

namespace Sys2Proof.Proofs

open Sys2Proof.Machine Sys2Proof.Claims

/-- Settles O41: the flags make the interrupt ready, the external one first, and the level is free. -/
theorem interruptsAcknowledged : Obligations.InterruptsAcknowledged := by
  intro s hrun hemi hfree
  refine ⟨fun heei heif => ?external, fun hquiet heti htf => ?timer⟩
  case external =>
    have hext : extReady s = true := extReady_iff.mpr ⟨hemi, ⟨heei, heif⟩, hfree⟩
    exact nextMove_acknowledges decode hrun (pendingInterrupt_external hext) hfree
  case timer =>
    have hext : ¬extReady s = true := fun h => have ⟨_, hreq, _⟩ := extReady_iff.mp h; hquiet hreq
    have htmr : tmrReady s = true := tmrReady_iff.mpr ⟨hemi, ⟨heti, htf⟩, hfree⟩
    exact nextMove_acknowledges decode hrun (pendingInterrupt_timer hext htmr) hfree

/-- Settles O42: each of the three cases refutes one condition of `ext_ready` and of `tmr_ready` (R410). -/
theorem maskOrFullStackHoldsInterrupts : Obligations.MaskOrFullStackHoldsInterrupts := by
  intro s hrun hheld
  refine nextMove_of_running decode hrun ?_
  obtain hoff | hfull | ⟨hext, htmr⟩ := hheld
  · have hmasked := Bool.eq_false_iff.mp hoff
    exact pendingInterrupt_none (fun h => have ⟨hemi, _⟩ := extReady_iff.mp h; hmasked hemi)
      fun h => have ⟨hemi, _⟩ := tmrReady_iff.mp h; hmasked hemi
  · have hnolevel := Nat.not_lt.mpr hfull
    exact pendingInterrupt_none (fun h => have ⟨_, _, hfree⟩ := extReady_iff.mp h; hnolevel hfree)
      fun h => have ⟨_, _, hfree⟩ := tmrReady_iff.mp h; hnolevel hfree
  · exact pendingInterrupt_none (fun h => have ⟨_, hreq, _⟩ := extReady_iff.mp h; hext hreq)
      fun h => have ⟨_, hreq, _⟩ := tmrReady_iff.mp h; htmr hreq

/-- Settles O43. -/
theorem timerOverflowPeriod : Obligations.TimerOverflowPeriod :=
  fun s => ⟨fun _ => timerTick_iterate_below, timerTick_iterate_overflow s⟩

/-- Settles O44: where the WDT takes no cycle the ticks are `timerClock` again and again, and the mode says what that is; a change of
the TMR pad is `timerEdge`. -/
theorem timerCountsItsClock : Obligations.TimerCountsItsClock := by
  refine ⟨fun n s hwdt => ?cycles, fun level s hres hpad => ?edges⟩
  case cycles =>
    have hnone := wdtTakesCycles_eq_false hwdt
    have counted (h : CountsCycles s) : applyTicks n s = timerTick^[n] s :=
      (applyTicks_eq_iterate hnone n).trans (timerClock_iterate_of_countsCycles h n)
    have idle (h : timerClock s = s) : applyTicks n s = s := applyTicks_of_timerClock_eq hnone h n
    refine ⟨fun h1 h0 hton => counted (.inl ⟨timerMode_eq_timer h1 h0, hton⟩),
      fun h1 h0 hpwm => counted (.inr ⟨timerMode_eq_pulseWidth.mpr ⟨h1, h0⟩, hpwm⟩),
      fun h1 h0 hpwm => idle (timerClock_of_no_measurement (timerMode_eq_pulseWidth.mpr ⟨h1, h0⟩) hpwm),
      fun h1 h0 => idle (timerClock_of_eventCount (timerMode_eq_eventCount h1 h0)),
      fun hton hpwm => idle (timerClock_of_off hton hpwm), fun h1 h0 hton => ⟨_, rfl, ?_⟩⟩
    rw [applyTicks_eq_iterate hnone, timerClock_iterate_of_unusedModeOn ⟨timerMode_eq_unused h1 h0, hton⟩]
    exact unusedModeTick_iterate n s
  case edges =>
    refine ⟨fun hidle => tmrPad_change_of_edge hres hpad ?_ rfl rfl, fun h1 h0 hton => ⟨_, rfl, ?_⟩⟩
    · obtain ⟨h1, h0⟩ | ⟨h1, hton⟩ := hidle
      · exact timerEdge_of_timer (s := { s with tmrPad := level }) (timerMode_eq_timer h1 h0) level
      · exact timerEdge_of_off (s := { s with tmrPad := level }) h1 hton level
    · rw [tmrPad_change_of_unusedModeOn hres hpad ⟨timerMode_eq_unused h1 h0, hton⟩]
      exact ⟨rfl, fun htf => Bool.or_eq_true_iff.mpr (.inl htf)⟩

/-- Settles O45: the active edge is a tick, which either counts up or overflows. -/
theorem eventCountEdges : Obligations.EventCountEdges := by
  intro level s hres h1 h0 hton hpad
  have hm : timerMode { s with tmrPad := level } = .eventCount := timerMode_eq_eventCount h1 h0
  refine ⟨fun hlevel => ?other, fun hlevel hcnt => ?counts, fun hlevel hcnt => ?overflows⟩
  case other => exact tmrPad_change_of_edge hres hpad (timerEdge_of_not_active hm hlevel) rfl rfl
  case counts =>
    have hedge := (timerEdge_of_active hm hton hlevel).trans (timerTick_of_ne_max hcnt)
    exact tmrPad_change_of_edge hres hpad hedge rfl rfl
  case overflows =>
    have hedge := (timerEdge_of_active hm hton hlevel).trans (timerTick_of_max hcnt)
    rw [tmrPad_change hres hpad, hedge, wakeOnRequest_of_same_eif, Bool.not_true, Bool.or_false]
    all_goals rfl

/-- Settles O46: no edge of a measurement sets a request flag. -/
theorem pulseWidthMeasurement : Obligations.PulseWidthMeasurement := by
  intro level s hres h1 h0 hpad
  have hm : timerMode { s with tmrPad := level } = .pulseWidth := timerMode_eq_pulseWidth.mpr ⟨h1, h0⟩
  refine ⟨fun hlevel hton hpwm => ?start, fun hlevel hpwm => ?stop, fun hstart hstop => ?other⟩
  case start => exact tmrPad_change_of_edge hres hpad (timerEdge_of_start hm hlevel hton hpwm) rfl rfl
  case stop => exact tmrPad_change_of_edge hres hpad (timerEdge_of_stop hm hlevel hpwm) rfl rfl
  case other => exact tmrPad_change_of_edge hres hpad (timerEdge_of_no_start_or_stop hm hstart hstop) rfl rfl

/-- Settles O47: below the period a tick adds to the count, and the tick that completes it is the time-out. -/
theorem watchdogTimeOutPeriod : Obligations.WatchdogTimeOutPeriod := by
  intro s n hcnt hpre hn
  rw [← wdtPeriod_eq] at hn ⊢
  have h0 : setWdtCount 0 s = s := by
    have hzero : wdtCount s = 0 := by rw [wdtCount, hcnt, hpre]; rfl
    rw [← hzero, setWdtCount_wdtCount]
  refine ⟨wdtTick_iterate_of_lt h0 hn, ?_⟩
  show (wdtTick (setWdtCount n s)).2 = true ↔ _
  by_cases hlast : n + 1 = wdtPeriod s
  · rw [wdtTick_setWdtCount_of_eq hlast]
    exact ⟨fun _ => hlast, fun _ => rfl⟩
  · rw [wdtTick_setWdtCount_of_lt (by omega)]
    exact ⟨nofun, fun h => absurd h hlast⟩

/-- Settles O48: on the instruction clock by the count of the cycles; on the RC oscillator because no move but the reset lowers the
count and every RC tick raises it. -/
theorem watchdogResetsRunningCpu : Obligations.WatchdogResetsRunningCpu := by
  refine ⟨fun s n k hclock hrun hton hpwm hcount hn => ?instructionClock,
    fun enc sched s hf hrc hrun hres hsched hgoes => ?rcOscillator⟩
  case instructionClock =>
    have h : WdtClocked s := ⟨hclock, hrun, hton, hpwm⟩
    have hticks := applyTicks_of_wdtClocked h k
    rw [show wdtCount s = n from hcount] at hticks
    rw [← wdtPeriod_eq] at hn ⊢
    rw [hticks]
    exact ⟨runTicks_of_lt_wdtPeriod h, runTicks_of_wdtPeriod_le h hn⟩
  case rcOscillator =>
    have hstart : RcWatched false s := ⟨hrc, hres, hrun⟩
    have hmove n t (ht : runUnder enc sched n s = .next t) (hw : RcWatched false t) :
        TimesOut enc (sched n) t ∨ LeadsOn enc (RcWatched false) (sched n) t := by
      obtain ⟨hpower, hlevel⟩ := hsched n
      obtain ⟨t', ht', hi⟩ := hgoes n
      obtain ⟨u, hu, -⟩ := hgoes (n + 1)
      obtain rfl : t' = t := Host.Outcome.next.inj (ht'.symm.trans ht)
      exact hw.timesOut_or_leadsOn ((runUnder_succ ht).symm.trans hu) hpower hlevel hi
    obtain ⟨n, t, ht, htick, hreset⟩ := hf.comes_to hstart hmove
    exact ⟨n, t, ht, htick, (runUnder_succ ht).trans hreset⟩

/-- Settles O53: the line's level and HALT mode are all that a change of an input line writes. -/
theorem portAWakesFromHalt : Obligations.PortAWakesFromHalt := by
  intro i level s
  refine ⟨fun hout => if_neg (Bool.eq_false_iff.mp hout), fun hin => ⟨_, rfl, ?_⟩⟩
  have hmove : envStep (.pad (.pa i) level) s =
      { s with
        paPads := setBitTo s.paPads i level
        halted := s.halted && !(s.paPads.getLsbD i && !level && s.option.getLsbD i) } := if_pos hin
  rw [hmove]
  refine ⟨rfl, fun k hk => getLsbD_setBitTo s.paPads level hk, ?_⟩
  rw [Bool.and_eq_true, Bool.not_eq_true', ← Bool.not_eq_true]
  simp only [Bool.and_eq_true, Bool.not_eq_true', and_assoc]

/-- Settles O54: the idle step answers its own state, and in a fair run every move of a chip that still sleeps leads on. -/
theorem haltedCpuWaits : Obligations.HaltedCpuWaits := by
  intro s hhalt hopt
  refine ⟨fun henv n => ?waits, fun rest henv => ?takesEntry, fun hrc hres enc sched hf => ?wakes⟩
  case waits =>
    have hstep : step s = .next s := by
      rw [step, nextMove, henv]
      exact cpuStep_of_idle decode hopt (.inl hhalt)
    exact core_run_of_step_eq (M := Sys2Proof.core) hstep n
  case takesEntry =>
    rw [step, nextMove, henv]
    exact cpuStep_of_idle (s := { s with env := rest }) decode hopt (.inl hhalt)
  case wakes =>
    have hsleep : WatchedSleep s := ⟨⟨hrc, hres, hhalt⟩, hopt⟩
    have hmove n t (_ : runUnder enc sched n s = .next t) (hw : WatchedSleep t) := hw.wakes_or_leadsOn enc (sched n)
    obtain ⟨n, t, ht, u, hwakes, hu⟩ := hf.comes_to hsleep hmove
    exact ⟨n + 1, u, (runUnder_succ ht).trans hwakes, hu⟩

/-- Settles O52: the falling edge sets EIF, and the wake-up asks whether EIF is new. -/
theorem intEdgeRequestsAndWakes : Obligations.IntEdgeRequestsAndWakes := by
  intro s hres
  exact ⟨intPad_falls hres, fun _ => intPad_rises s⟩

/-- Settles O56: the entry at the head is removed and its move made; an RC tick asks for the clock and for RES. -/
theorem environmentMovesFirst : Obligations.EnvironmentMovesFirst := by
  intro s e rest henv he
  have hstep : step s = .next (envStep e { s with env := rest }) := by
    rw [step, nextMove, henv]
    exact move_environment decode he _
  refine ⟨hstep, fun hrc hres htick => ?counts, fun hoff htick => ?idle⟩
  case counts =>
    subst htick
    exact hstep.trans (congrArg Host.Outcome.next (rcTick_of_counting (s := { s with env := rest }) hrc hres))
  case idle =>
    have hnone : (wdtOnRc { s with env := rest } && s.resPad) = false := Bool.and_eq_false_iff.mpr (.inl hoff)
    subst htick
    exact hstep.trans (congrArg Host.Outcome.next (rcTick_of_not_counting hnone))

end Sys2Proof.Proofs
end

/-!
Proofs of the family of the resets (70_reset): the state after each of the five, and the chip while RES is low.
-/

section
namespace Sys2Proof.Machine

/-- RAM has 64 bytes, and power-on fills each from its draw (10_state R77). -/
theorem read_ofList_take_64 (bytes : List Byte) {k : Nat} (hk : k < 64) :
    Memory.read (Memory.ofList 0x40 (bytes.take 64)) (0x40 + k) = bytes.getD k 0 := by
  rw [read_ofList, List.getD_eq_getElem?_getD, List.getElem?_take_of_lt hk, ← List.getD_eq_getElem?_getD]

end Sys2Proof.Machine

namespace Sys2Proof.Proofs

open Sys2Proof.Machine Sys2Proof.Claims

/-- Settles O49: each cause names its kind of reset, and the kind's state after is the one stated. -/
theorem resetKinds : Obligations.ResetKinds := by
  rintro d s c rfl
  refine ⟨fun hres hrun => ?resNormal, fun hres hhalt => ?resHalt, wdtTimeout_of_running, wdtTimeout_of_halted, _, rfl,
    fun k => read_ofList_take_64 d.ram⟩
  case resNormal =>
    rw [resPad_falls hres, hrun]
    rfl
  case resHalt =>
    rw [resPad_falls hres, hhalt]
    rfl

/-- Settles O51: each of the moves asks for RES high before it does anything but follow the level. -/
theorem resLowHoldsChip : Obligations.ResLowHoldsChip := by
  intro s level hlow
  refine ⟨fun hopt henv => ?cpu, rcTick_of_not_counting ?rcTick, if_neg ?int, if_neg ?tmr, if_neg ?res⟩
  case cpu =>
    rw [step, nextMove, henv]
    exact cpuStep_of_idle decode hopt (.inr hlow)
  all_goals simp [hlow]

end Sys2Proof.Proofs
end
